-- ==== Sys2Proof/Word.lean ====
section
/-! DEFINITION. The words of the Wedrin 4: bytes, 32-bit lanes and 64-bit scalars (00 R1, 05 R115, 06 R133). -/

namespace Sys2Proof

/-- A byte of memory. -/
abbrev Byte := BitVec 8

/-- A lane of a vector register (R133). -/
abbrev Lane := BitVec 32

/-- A scalar register, a global address, an accumulator entry. -/
abbrev Word := BitVec 64

end Sys2Proof
end

