-- ==== Sys2Proof/Syntax.lean ====
section
/-! DEFINITION. Syntax of the Wedrin 4: the fields of each slot layout (02 Tables 2.5 to 2.12, R45) and the one
inductive `Instr`, with a constructor for every row of spec/opcode_table.json. Slot operations carry the fields of
their slot as the bundle gives them. Lean's runtime holds no constructor with
fields past the 245th, so the decoder of the X, F and C slots is marked noncomputable; the kernel evaluates it all the same. -/

namespace Sys2Proof

/-- S-slot fields (R39, Table 2.5). In the S-W layout `sb` and the top bit of `sa` are reserved and `sa` holds Q. -/
structure SSlot where
  imm : BitVec 16
  gn : BitVec 1
  g : BitVec 4
  sb : BitVec 3
  sa : BitVec 3
  d : BitVec 6
  deriving DecidableEq, Repr

/-- L-slot fields (R41, Table 2.7). -/
structure LSlot where
  off : BitVec 14
  gn : BitVec 1
  g : BitVec 4
  sc : BitVec 3
  sb : BitVec 3
  sa : BitVec 3
  t : BitVec 6
  deriving DecidableEq, Repr

/-- V-slot fields (R43, Table 2.9). -/
structure VSlot where
  imm : BitVec 13
  vs : BitVec 1
  sd : BitVec 6
  ss : BitVec 3
  rm : BitVec 3
  mz : BitVec 1
  me : BitVec 1
  mkr : BitVec 4
  vc : BitVec 6
  vb : BitVec 6
  va : BitVec 6
  vd : BitVec 6
  deriving DecidableEq, Repr

/-- M-slot fields (R44, Table 2.10). -/
structure MSlot where
  ar : BitVec 10
  ot : BitVec 6
  os : BitVec 6
  sb : BitVec 3
  sa : BitVec 3
  sy : BitVec 4
  deriving DecidableEq, Repr

/-- X-slot fields (R44, Table 2.11). -/
structure XSlot where
  td : BitVec 6
  ord : BitVec 2
  sco : BitVec 3
  ch : BitVec 3
  sd : BitVec 3
  sc : BitVec 3
  sb : BitVec 3
  sa : BitVec 3
  sy : BitVec 4
  deriving DecidableEq, Repr

/-- F-slot fields (R44, Table 2.12). -/
structure FSlot where
  n : BitVec 6
  sb : BitVec 3
  sa : BitVec 3
  pt : BitVec 4
  sy : BitVec 4
  deriving DecidableEq, Repr

/-- C-slot fields in the C-R layout (R45). -/
structure CSlot where
  imm : BitVec 16
  p : BitVec 4
  sb : BitVec 3
  sa : BitVec 3
  deriving DecidableEq, Repr

/-- C-slot fields in the C-J layout of BR and CALL (R45). -/
structure CJump where
  disp : BitVec 20
  deriving DecidableEq, Repr

/-- One constructor per row of the opcode table. A slot operation carries its slot's fields. A header operation reads the
header of the bundle in issue, and an event reads `State.focus`, which names the part it is about. -/
inductive Instr where
  | add (f : SSlot) -- ADD, R122
  | sub (f : SSlot) -- SUB, R122
  | and (f : SSlot) -- AND, R122
  | or (f : SSlot) -- OR, R122
  | xor (f : SSlot) -- XOR, R122
  | andn (f : SSlot) -- ANDN, R122
  | orn (f : SSlot) -- ORN, R122
  | xnor (f : SSlot) -- XNOR, R122
  | shl (f : SSlot) -- SHL, R122
  | shr (f : SSlot) -- SHR, R122
  | sar (f : SSlot) -- SAR, R122
  | rol (f : SSlot) -- ROL, R122
  | ror (f : SSlot) -- ROR, R122
  | shadd (f : SSlot) -- SHADD, R122
  | abs (f : SSlot) -- ABS, R122
  | mul (f : SSlot) -- MUL, R122
  | mulhI (f : SSlot) -- MULH_I, R122
  | mulhN (f : SSlot) -- MULH_N, R122
  | mulhIn (f : SSlot) -- MULH_IN, R122
  | mulwI (f : SSlot) -- MULW_I, R122
  | mulwN (f : SSlot) -- MULW_N, R122
  | divI (f : SSlot) -- DIV_I, R123
  | divN (f : SSlot) -- DIV_N, R123
  | remI (f : SSlot) -- REM_I, R123
  | remN (f : SSlot) -- REM_N, R123
  | minI (f : SSlot) -- MIN_I, R122
  | minN (f : SSlot) -- MIN_N, R122
  | maxI (f : SSlot) -- MAX_I, R122
  | maxN (f : SSlot) -- MAX_N, R122
  | addsI (f : SSlot) -- ADDS_I, R124
  | addsN (f : SSlot) -- ADDS_N, R124
  | subsI (f : SSlot) -- SUBS_I, R124
  | subsN (f : SSlot) -- SUBS_N, R124
  | clz (f : SSlot) -- CLZ, R122
  | ctz (f : SSlot) -- CTZ, R122
  | popc (f : SSlot) -- POPC, R122
  | brev (f : SSlot) -- BREV, R122
  | extrI (f : SSlot) -- EXTR_I, R125
  | extrN (f : SSlot) -- EXTR_N, R125
  | insr (f : SSlot) -- INSR, R125
  | sextI8 (f : SSlot) -- SEXT_I8, R122
  | sextI16 (f : SSlot) -- SEXT_I16, R122
  | sextI32 (f : SSlot) -- SEXT_I32, R122
  | cmpEq (f : SSlot) -- CMP_EQ, R122
  | cmpNe (f : SSlot) -- CMP_NE, R122
  | cmpLtI (f : SSlot) -- CMP_LT_I, R122
  | cmpLeI (f : SSlot) -- CMP_LE_I, R122
  | cmpGtI (f : SSlot) -- CMP_GT_I, R122
  | cmpGeI (f : SSlot) -- CMP_GE_I, R122
  | cmpLtN (f : SSlot) -- CMP_LT_N, R122
  | cmpLeN (f : SSlot) -- CMP_LE_N, R122
  | cmpGtN (f : SSlot) -- CMP_GT_N, R122
  | cmpGeN (f : SSlot) -- CMP_GE_N, R122
  | tstAny (f : SSlot) -- TST_ANY, R122
  | tstNone (f : SSlot) -- TST_NONE, R122
  | sel (f : SSlot) -- SEL, R122
  | movz (f : SSlot) -- MOVZ, R127
  | movk (f : SSlot) -- MOVK, R127
  | movn (f : SSlot) -- MOVN, R127
  | pand (f : SSlot) -- PAND, R126
  | por (f : SSlot) -- POR, R126
  | pxor (f : SSlot) -- PXOR, R126
  | pandn (f : SSlot) -- PANDN, R126
  | pmovs (f : SSlot) -- PMOVS, R126
  | smovp (f : SSlot) -- SMOVP, R122
  | csrr (f : SSlot) -- CSRR, R130
  | csrw (f : SSlot) -- CSRW, R130
  | csrs (f : SSlot) -- CSRS, R130
  | csrc (f : SSlot) -- CSRC, R130
  | ktime (f : SSlot) -- KTIME, R132
  | ldI8 (f : LSlot) -- LD_I8, R231
  | ldN8 (f : LSlot) -- LD_N8, R231
  | ldI16 (f : LSlot) -- LD_I16, R231
  | ldN16 (f : LSlot) -- LD_N16, R231
  | ldI32 (f : LSlot) -- LD_I32, R231
  | ldN32 (f : LSlot) -- LD_N32, R231
  | ld64 (f : LSlot) -- LD_64, R231
  | ldN32Acq (f : LSlot) -- LD_N32_ACQ, R230
  | ld64Acq (f : LSlot) -- LD_64_ACQ, R230
  | st8 (f : LSlot) -- ST_8, R231
  | st16 (f : LSlot) -- ST_16, R231
  | st32 (f : LSlot) -- ST_32, R231
  | st64 (f : LSlot) -- ST_64, R231
  | st32Rel (f : LSlot) -- ST_32_REL, R230
  | st64Rel (f : LSlot) -- ST_64_REL, R230
  | lda (f : LSlot) -- LDA, R233
  | ldaAcq (f : LSlot) -- LDA_ACQ, R233
  | sta (f : LSlot) -- STA, R233
  | staRel (f : LSlot) -- STA_REL, R233
  | aadd (f : LSlot) -- AADD, R233
  | aaddAcq (f : LSlot) -- AADD_ACQ, R233
  | aaddRel (f : LSlot) -- AADD_REL, R233
  | aaddAr (f : LSlot) -- AADD_AR, R233
  | aswp (f : LSlot) -- ASWP, R233
  | aswpAcq (f : LSlot) -- ASWP_ACQ, R233
  | aswpRel (f : LSlot) -- ASWP_REL, R233
  | aswpAr (f : LSlot) -- ASWP_AR, R233
  | vld (f : LSlot) -- VLD, R164
  | vlds (f : LSlot) -- VLDS, R164
  | vst (f : LSlot) -- VST, R164
  | vsts (f : LSlot) -- VSTS, R164
  | vaddF32 (f : VSlot) -- VADD_F32, R145
  | vaddF16 (f : VSlot) -- VADD_F16, R145
  | vaddBf16 (f : VSlot) -- VADD_BF16, R145
  | vaddI32 (f : VSlot) -- VADD_I32, R148
  | vaddI16 (f : VSlot) -- VADD_I16, R148
  | vaddI8 (f : VSlot) -- VADD_I8, R148
  | vsubF32 (f : VSlot) -- VSUB_F32, R145
  | vsubF16 (f : VSlot) -- VSUB_F16, R145
  | vsubBf16 (f : VSlot) -- VSUB_BF16, R145
  | vsubI32 (f : VSlot) -- VSUB_I32, R148
  | vsubI16 (f : VSlot) -- VSUB_I16, R148
  | vsubI8 (f : VSlot) -- VSUB_I8, R148
  | vmulF32 (f : VSlot) -- VMUL_F32, R145
  | vmulF16 (f : VSlot) -- VMUL_F16, R145
  | vmulBf16 (f : VSlot) -- VMUL_BF16, R145
  | vmulI32 (f : VSlot) -- VMUL_I32, R148
  | vmulI16 (f : VSlot) -- VMUL_I16, R148
  | vfmaF32 (f : VSlot) -- VFMA_F32, R145
  | vfmaF16 (f : VSlot) -- VFMA_F16, R145
  | vfmaBf16 (f : VSlot) -- VFMA_BF16, R145
  | vminF32 (f : VSlot) -- VMIN_F32, R146
  | vminF16 (f : VSlot) -- VMIN_F16, R146
  | vminBf16 (f : VSlot) -- VMIN_BF16, R146
  | vminI32 (f : VSlot) -- VMIN_I32, R148
  | vmaxF32 (f : VSlot) -- VMAX_F32, R146
  | vmaxF16 (f : VSlot) -- VMAX_F16, R146
  | vmaxBf16 (f : VSlot) -- VMAX_BF16, R146
  | vmaxI32 (f : VSlot) -- VMAX_I32, R148
  | vaddsI32 (f : VSlot) -- VADDS_I32, R148
  | vaddsI16 (f : VSlot) -- VADDS_I16, R148
  | vaddsI8 (f : VSlot) -- VADDS_I8, R148
  | vaddsN8 (f : VSlot) -- VADDS_N8, R148
  | vsubsI32 (f : VSlot) -- VSUBS_I32, R148
  | vsubsI16 (f : VSlot) -- VSUBS_I16, R148
  | vsubsI8 (f : VSlot) -- VSUBS_I8, R148
  | vsubsN8 (f : VSlot) -- VSUBS_N8, R148
  | vmulhI32 (f : VSlot) -- VMULH_I32, R148
  | vmulhN32 (f : VSlot) -- VMULH_N32, R148
  | vabsF32 (f : VSlot) -- VABS_F32, R146
  | vabsI32 (f : VSlot) -- VABS_I32, R148
  | vnegF32 (f : VSlot) -- VNEG_F32, R146
  | vnegI32 (f : VSlot) -- VNEG_I32, R148
  | vrcp (f : VSlot) -- VRCP, R147
  | vrsq (f : VSlot) -- VRSQ, R147
  | vexp2 (f : VSlot) -- VEXP2, R147
  | vlog2 (f : VSlot) -- VLOG2, R147
  | vsqrt (f : VSlot) -- VSQRT, R147
  | vand (f : VSlot) -- VAND, R148
  | vor (f : VSlot) -- VOR, R148
  | vxor (f : VSlot) -- VXOR, R148
  | vandn (f : VSlot) -- VANDN, R148
  | vshl (f : VSlot) -- VSHL, R148
  | vshr (f : VSlot) -- VSHR, R148
  | vsar (f : VSlot) -- VSAR, R148
  | vclz (f : VSlot) -- VCLZ, R148
  | vpopc (f : VSlot) -- VPOPC, R148
  | vcmpF32Eq (f : VSlot) -- VCMP_F32_EQ, R149
  | vcmpF32Ne (f : VSlot) -- VCMP_F32_NE, R149
  | vcmpF32Lt (f : VSlot) -- VCMP_F32_LT, R149
  | vcmpF32Le (f : VSlot) -- VCMP_F32_LE, R149
  | vcmpF32Un (f : VSlot) -- VCMP_F32_UN, R149
  | vcmpI32Eq (f : VSlot) -- VCMP_I32_EQ, R149
  | vcmpI32Ne (f : VSlot) -- VCMP_I32_NE, R149
  | vcmpI32Lt (f : VSlot) -- VCMP_I32_LT, R149
  | vcmpI32Le (f : VSlot) -- VCMP_I32_LE, R149
  | vcmpN32Lt (f : VSlot) -- VCMP_N32_LT, R149
  | vcmpN32Le (f : VSlot) -- VCMP_N32_LE, R149
  | vsel (f : VSlot) -- VSEL, R150
  | mand (f : VSlot) -- MAND, R151
  | mor (f : VSlot) -- MOR, R151
  | mxor (f : VSlot) -- MXOR, R151
  | mandn (f : VSlot) -- MANDN, R151
  | mtos (f : VSlot) -- MTOS, R151
  | stom (f : VSlot) -- STOM, R151
  | vraddF32 (f : VSlot) -- VRADD_F32, R152
  | vraddI32 (f : VSlot) -- VRADD_I32, R152
  | vrmaxF32 (f : VSlot) -- VRMAX_F32, R152
  | vrmaxI32 (f : VSlot) -- VRMAX_I32, R152
  | vrminF32 (f : VSlot) -- VRMIN_F32, R152
  | vrminI32 (f : VSlot) -- VRMIN_I32, R152
  | vperm (f : VSlot) -- VPERM, R153
  | vrot (f : VSlot) -- VROT, R153
  | vbcast (f : VSlot) -- VBCAST, R153
  | vext (f : VSlot) -- VEXT, R153
  | vins (f : VSlot) -- VINS, R153
  | vmov (f : VSlot) -- VMOV, R153
  | vmovi (f : VSlot) -- VMOVI, R153
  | vcvtF16F32 (f : VSlot) -- VCVT_F16_F32, R154
  | vcvtBf16F32 (f : VSlot) -- VCVT_BF16_F32, R154
  | vcvtF32F16 (f : VSlot) -- VCVT_F32_F16, R154
  | vcvtF32Bf16 (f : VSlot) -- VCVT_F32_BF16, R154
  | vcvtI32F32 (f : VSlot) -- VCVT_I32_F32, R154
  | vcvtN32F32 (f : VSlot) -- VCVT_N32_F32, R154
  | vcvtF32I32 (f : VSlot) -- VCVT_F32_I32, R154
  | vcvtF32N32 (f : VSlot) -- VCVT_F32_N32, R154
  | vtologLb8 (f : VSlot) -- VTOLOG_LB8, R156
  | vtologLb6 (f : VSlot) -- VTOLOG_LB6, R156
  | vtologLb4 (f : VSlot) -- VTOLOG_LB4, R156
  | vtologLm16 (f : VSlot) -- VTOLOG_LM16, R156
  | vfromlogLb8 (f : VSlot) -- VFROMLOG_LB8, R156
  | vfromlogLb6 (f : VSlot) -- VFROMLOG_LB6, R156
  | vfromlogLb4 (f : VSlot) -- VFROMLOG_LB4, R156
  | vfromlogLm16 (f : VSlot) -- VFROMLOG_LM16, R156
  | vbpackLb8 (f : VSlot) -- VBPACK_LB8, R158
  | vbpackLb6 (f : VSlot) -- VBPACK_LB6, R158
  | vbpackLb4 (f : VSlot) -- VBPACK_LB4, R158
  | vbunpLb8 (f : VSlot) -- VBUNP_LB8, R159
  | vbunpLb6 (f : VSlot) -- VBUNP_LB6, R159
  | vbunpLb4 (f : VSlot) -- VBUNP_LB4, R159
  | vtordwF32 (f : VSlot) -- VTORDW_F32, R161
  | vtordwA64 (f : VSlot) -- VTORDW_A64, R161
  | vfromrdwF32 (f : VSlot) -- VFROMRDW_F32, R163
  | vfromrdwA64 (f : VSlot) -- VFROMRDW_A64, R163
  | vaddrdw (f : VSlot) -- VADDRDW, R162
  | vcvtaF32 (f : VSlot) -- VCVTA_F32, R160
  | vcvtaA64 (f : VSlot) -- VCVTA_A64, R160
  | nop -- NOP, R49
  | nopF -- NOP_F, R49
  | nopC -- NOP_C, R49
  | regionOpen -- REGION_OPEN, R358
  | bankLock -- BANK_LOCK, R195
  | wload (f : MSlot) -- WLOAD, R105
  | wloadw (f : MSlot) -- WLOADW, R106
  | streamAdd (f : MSlot) -- STREAM_ADD, R107
  | streamOvw (f : MSlot) -- STREAM_OVW, R107
  | streamTAdd (f : MSlot) -- STREAM_T_ADD, R107
  | streamTOvw (f : MSlot) -- STREAM_T_OVW, R107
  | drain (f : MSlot) -- DRAIN, R109
  | drainRdw (f : MSlot) -- DRAIN_RDW, R109
  | accclr (f : MSlot) -- ACCCLR, R110
  | anchor (f : MSlot) -- ANCHOR, R111
  | oclaim (f : MSlot) -- OCLAIM, R112
  | orelease (f : MSlot) -- ORELEASE, R112
  | fmtsel (f : MSlot) -- FMTSEL, R113
  | accpin (f : MSlot) -- ACCPIN, R114
  | accpinClr (f : MSlot) -- ACCPIN_CLR, R114
  | copy (f : XSlot) -- COPY, R222
  | gather (f : XSlot) -- GATHER, R223
  | scatter (f : XSlot) -- SCATTER, R223
  | get (f : XSlot) -- GET, R222
  | put (f : XSlot) -- PUT, R222
  | layreg (f : XSlot) -- LAYREG, R226
  | laydrop (f : XSlot) -- LAYDROP, R227
  | wmset (f : XSlot) -- WMSET, R228
  | smalloc (f : XSlot) -- SMALLOC, R239
  | smfree (f : XSlot) -- SMFREE, R240
  | smquery (f : XSlot) -- SMQUERY, R241
  | smld (f : XSlot) -- SMLD, R242
  | smldAcq (f : XSlot) -- SMLD_ACQ, R242
  | smst (f : XSlot) -- SMST, R242
  | smstRel (f : XSlot) -- SMST_REL, R242
  | smatomAdd (f : XSlot) -- SMATOM_ADD, R243
  | smatomSwap (f : XSlot) -- SMATOM_SWAP, R243
  | smatomCas (f : XSlot) -- SMATOM_CAS, R243
  | smatomMinI (f : XSlot) -- SMATOM_MIN_I, R243
  | smatomMaxI (f : XSlot) -- SMATOM_MAX_I, R243
  | smatomMinN (f : XSlot) -- SMATOM_MIN_N, R243
  | smatomMaxN (f : XSlot) -- SMATOM_MAX_N, R243
  | burnishUpdate (f : XSlot) -- BURNISH_UPDATE, R172
  | burnishRecipeLoad (f : XSlot) -- BURNISH_RECIPE_LOAD, R170
  | send (f : FSlot) -- SEND, R268
  | recv (f : FSlot) -- RECV, R269
  | recvaddReg (f : FSlot) -- RECVADD_REG, R270
  | recvaddAcc (f : FSlot) -- RECVADD_ACC, R271
  | relay (f : FSlot) -- RELAY, R272
  | br (f : CJump) -- BR, R302
  | brpT (f : CSlot) -- BRP_T, R302
  | brpF (f : CSlot) -- BRP_F, R302
  | bri (f : CSlot) -- BRI, R302
  | call (f : CJump) -- CALL, R303
  | calli (f : CSlot) -- CALLI, R303
  | ret (f : CSlot) -- RET, R303
  | loop (f : CSlot) -- LOOP, R304
  | lend (f : CSlot) -- LEND, R305
  | semw (f : CSlot) -- SEMW, R306
  | sems (f : CSlot) -- SEMS, R307
  | phregSig (f : CSlot) -- PHREG_SIG, R312
  | phregWait (f : CSlot) -- PHREG_WAIT, R312
  | phregSw (f : CSlot) -- PHREG_SW, R312
  | pharr (f : CSlot) -- PHARR, R313
  | phwait (f : CSlot) -- PHWAIT, R316
  | phdrop (f : CSlot) -- PHDROP, R317
  | fence (f : CSlot) -- FENCE, R210
  | yield (f : CSlot) -- YIELD, R308
  | halt (f : CSlot) -- HALT, R309
  | align (f : CSlot) -- ALIGN, R254
  | ftrbeg (f : CSlot) -- FTRBEG, R258
  | ftrend (f : CSlot) -- FTREND, R260
  | trap (f : CSlot) -- TRAP, R348
  | eret (f : CSlot) -- ERET, R349
  | eres (f : CSlot) -- ERES, R349
  | park (f : CSlot) -- PARK, R350
  | unparkReturn (f : CSlot) -- UNPARK_RETURN, R351
  | unparkResume (f : CSlot) -- UNPARK_RESUME, R351
  | unparkRedirect (f : CSlot) -- UNPARK_REDIRECT, R351
  | unparkEnd (f : CSlot) -- UNPARK_END, R351
  | resultLanding -- RESULT_LANDING, R118
  | lateResultLanding -- LATE_RESULT_LANDING, R234
  | lazyRegisterFill -- LAZY_REGISTER_FILL, R138
  | matrixCommandBegin -- MATRIX_COMMAND_BEGIN, R100
  | matrixCommandCompletion -- MATRIX_COMMAND_COMPLETION, R101
  | engineStep -- ENGINE_STEP, R18
  | engineFaultTaken -- ENGINE_FAULT_TAKEN, R346
  | copyCommandBegin -- COPY_COMMAND_BEGIN, R215
  | copyCommandCompletion -- COPY_COMMAND_COMPLETION, R216
  | burnishBegin -- BURNISH_BEGIN, R177
  | burnishCompletion -- BURNISH_COMPLETION, R178
  | fabricCommandCompletion -- FABRIC_COMMAND_COMPLETION, R267
  | beatArrival -- BEAT_ARRIVAL, R265
  | translationWalkComplete -- TRANSLATION_WALK_COMPLETE, R325
  | farAcquireReply -- FAR_ACQUIRE_REPLY, R235
  | trapEntry -- TRAP_ENTRY, R345
  | faultQueueRetest -- FAULT_QUEUE_RETEST, R352
  | quantumExpiry -- QUANTUM_EXPIRY, R294
  | regionLimitExpiry -- REGION_LIMIT_EXPIRY, R358
  | ftrTimerExpiry -- FTR_TIMER_EXPIRY, R259
  | progressWatchdog -- PROGRESS_WATCHDOG, R296
  | preemptionRequest -- PREEMPTION_REQUEST, R360
  | lazyPreemption -- LAZY_PREEMPTION, R361
  | urgentPreemption -- URGENT_PREEMPTION, R362
  | contextSave -- CONTEXT_SAVE, R363
  | contextRestore -- CONTEXT_RESTORE, R365
  | launchRecordPost -- LAUNCH_RECORD_POST, R278
  | launchHeadCheck -- LAUNCH_HEAD_CHECK, R281
  | launchFire -- LAUNCH_FIRE, R283
  | instanceStart -- INSTANCE_START, R288
  | memberPlace -- MEMBER_PLACE, R284
  | contextEnd -- CONTEXT_END, R309
  | compaction -- COMPACTION, R291
  | masterElection -- MASTER_ELECTION, R292
  | scrub -- SCRUB, R330
  | beaconSend -- BEACON_SEND, R249
  | beaconReceive -- BEACON_RECEIVE, R251
  | parentBeaconTimeout -- PARENT_BEACON_TIMEOUT, R251
  | stretchAnnounce -- STRETCH_ANNOUNCE, R388
  | powerWindowEnd -- POWER_WINDOW_END, R387
  | clockStepChange -- CLOCK_STEP_CHANGE, R385
  | dieFence -- DIE_FENCE, R369
  | keyDieRedesignation -- KEY_DIE_REDESIGNATION, R370
  | linkDown -- LINK_DOWN, R366
  | linkTraining -- LINK_TRAINING, R276
  | flitReplay -- FLIT_REPLAY, R277
  | remoteRequestTimeout -- REMOTE_REQUEST_TIMEOUT, R366
  | remoteRequestArrival -- REMOTE_REQUEST_ARRIVAL, R334
  | switchLossDeclared -- SWITCH_LOSS_DECLARED, R367
  | mirrorFailoverComplete -- MIRROR_FAILOVER_COMPLETE, R368
  | sheetTableUpdate -- SHEET_TABLE_UPDATE, R238
  | patrolRewrite -- PATROL_REWRITE, R394
  | packageReset -- PACKAGE_RESET, R390
  | nonRocePacket -- NON_ROCE_PACKET, R336
  | rdmaRead -- RDMA_READ, R337
  | rdmaWrite -- RDMA_WRITE, R337
  | tenset -- TENSET, R321
  | rngset -- RNGSET, R322
  | inval -- INVAL, R327
  | invalReply -- INVAL_REPLY, R327
  | pinq -- PINQ, R327
  | keyload -- KEYLOAD, R332
  | keydrop -- KEYDROP, R335
  | keydropReply -- KEYDROP_REPLY, R335
  | quota -- QUOTA, R331
  | qpset -- QPSET, R336
  | lsem -- LSEM, R282
  | status -- STATUS, R281
  | attest -- ATTEST, R341
  | pwrq -- PWRQ, R392
  | pwrset -- PWRSET, R387
  | errq -- ERRQ, R395
  | fwload -- FWLOAD, R392
  | reset -- RESET, R392
  | regset -- REGSET, R250
  | regsetReply -- REGSET_REPLY, R250
  | illegalCodeWord -- ILLEGAL_CODE_WORD, R24
  | unassignedOpcode -- UNASSIGNED_OPCODE, R47
  | contextLost -- CONTEXT_LOST, R354
  | resetnAssert -- RESETN_ASSERT, R390
  | unknownManagementOpc -- UNKNOWN_MANAGEMENT_OPC, R338
  deriving DecidableEq, Repr

end Sys2Proof
end

