-- ==== Sys2Proof/WellFormed.lean ====
section
/-! DEFINITION. Well-formedness of one operation: the encoding rules R35, R42, R43, R45 and R47 over its own fields, by the
field-use tables 5.1 (S), 9.5 (L), 6.2 (V), 4.3 (M), 9.2 and 7.2 (X), 10.5 (F), 11.7, 10.1 and 13.2 (C). -/

namespace Sys2Proof

/-- The control-register numbers Table 5.3 assigns (R128, R130). -/
def csrAssigned (n : Nat) : Bool :=
  [0x000, 0x001, 0x002, 0x010, 0x011, 0x020, 0x021, 0x030, 0x031, 0x032, 0x033, 0x034, 0x035, 0x040, 0x050, 0x051,
   0x060, 0x061, 0x062, 0x063, 0x064, 0x065, 0x070, 0x071, 0x072, 0x073, 0x074, 0x075, 0x078, 0x079, 0x07A, 0x07B,
   0x07C, 0x07D, 0x080, 0x081, 0x082, 0x083, 0x090, 0x091, 0x0A0, 0x0A1, 0x0B0, 0x0C0, 0x0C1, 0x0C2, 0x0C3, 0x0C4,
   0x0C5].contains n

/-- A scope code of Table 2.8 (R42). -/
def scopeOk (c : BitVec 3) : Bool := c.toNat ≤ 5

/-! S slot (Table 5.1). -/

def SSlot.wfBinary (f : SSlot) : Bool := f.sa == 7#3 || f.sb == 7#3 || f.imm == 0#16
def SSlot.wfUnary (f : SSlot) : Bool := f.sb == 0#3 && (f.sa == 7#3 || f.imm == 0#16)
/-- A predicate destination needs D[12:11] = 0 (R126). -/
def SSlot.predDest (f : SSlot) : Bool := f.d.toNat < 16
def SSlot.wfCompare (f : SSlot) : Bool := f.wfBinary && f.predDest
def SSlot.wfSmovp (f : SSlot) : Bool := f.wfUnary && f.predDest
def SSlot.wfSel (f : SSlot) : Bool := f.sa != 7#3 && f.sb != 7#3 && f.imm.toNat < 16
def SSlot.wfPredLogic (f : SSlot) : Bool := f.sa == 0#3 && f.sb == 0#3 && f.imm.toNat < 256 && f.predDest
def SSlot.wfPmovs (f : SSlot) : Bool := f.sa == 0#3 && f.sb == 0#3 && f.imm.toNat < 16
/-- MOVZ, MOVK and MOVN: bits [18:15] are reserved (R127). -/
def SSlot.wfMove (f : SSlot) : Bool := f.sb == 0#3 && f.sa.toNat < 4
def SSlot.wfCsrRead (f : SSlot) : Bool := f.sa == 0#3 && f.sb == 0#3 && csrAssigned f.imm.toNat
def SSlot.wfCsrWrite (f : SSlot) : Bool := f.sa != 7#3 && f.sb == 0#3 && csrAssigned f.imm.toNat
def SSlot.wfKtime (f : SSlot) : Bool := f.sa == 0#3 && f.sb == 0#3 && f.imm == 0#16

/-! L slot (R230, R164). The slot has no immediate (R33). -/

def LSlot.wfLoad (f : LSlot) : Bool := f.sa != 7#3 && f.sb == 0#3 && f.sc == 0#3
def LSlot.wfLoadOrd (f : LSlot) : Bool := f.sa != 7#3 && f.sb == 0#3 && scopeOk f.sc
def LSlot.wfAtomic (f : LSlot) : Bool := f.sa != 7#3 && f.sb != 7#3 && f.sc == 0#3
def LSlot.wfAtomicOrd (f : LSlot) : Bool := f.sa != 7#3 && f.sb != 7#3 && scopeOk f.sc
def LSlot.wfStore (f : LSlot) : Bool := f.wfAtomic && f.t == 0#6
def LSlot.wfStoreOrd (f : LSlot) : Bool := f.wfAtomicOrd && f.t == 0#6

/-! V slot (R43, R139, R140, Table 6.2). -/

/-- RM is at most 4, zero in forms that do not round, and MK is zero when ME = 0 (R43). -/
def VSlot.common (f : VSlot) (rounds : Bool) : Bool :=
  f.rm.toNat ≤ 4 && (rounds || f.rm == 0#3) && (f.me == 1#1 || f.mkr == 0#4)
/-- The mask fields of a form that takes no mask. -/
def VSlot.noMask (f : VSlot) : Bool := f.me == 0#1 && f.mz == 0#1
/-- IMM13 as a plain immediate: nonzero only when SS = 7. -/
def VSlot.immPlain (f : VSlot) : Bool := f.ss == 7#3 || f.imm == 0#13
/-- Operand B: VB when VS = 0, the scalar that SS selects when VS = 1 (R140). -/
def VSlot.opB (f : VSlot) : Bool := (if f.vs == 1#1 then f.vb == 0#6 else f.ss == 0#3) && f.immPlain
/-- No scalar operand and no immediate. -/
def VSlot.noScalar (f : VSlot) : Bool := f.vs == 0#1 && f.ss == 0#3 && f.imm == 0#13
/-- The param operand: a 64-bit value that SS selects. -/
def VSlot.param (f : VSlot) : Bool := f.vs == 0#1 && f.immPlain

def VSlot.wfBinary (f : VSlot) (rounds : Bool) : Bool := f.common rounds && f.opB && f.vc == 0#6 && f.sd == 0#6
def VSlot.wfFma (f : VSlot) : Bool := f.common true && f.opB && f.sd == 0#6
def VSlot.wfUnary (f : VSlot) (rounds : Bool) : Bool :=
  f.common rounds && f.noScalar && f.vb == 0#6 && f.vc == 0#6 && f.sd == 0#6
def VSlot.wfCompare (f : VSlot) : Bool := f.wfBinary false && f.vd.toNat < 16
def VSlot.wfVsel (f : VSlot) : Bool := f.wfBinary false && f.me == 1#1 && f.mz == 0#1
def VSlot.wfMaskLogic (f : VSlot) : Bool :=
  f.common false && f.noMask && f.noScalar && f.vd.toNat < 16 && f.va.toNat < 16 && f.vb.toNat < 16 && f.vc == 0#6
    && f.sd == 0#6
def VSlot.wfMtos (f : VSlot) : Bool :=
  f.common false && f.noMask && f.noScalar && f.vd == 0#6 && f.va.toNat < 16 && f.vb == 0#6 && f.vc == 0#6
def VSlot.wfStom (f : VSlot) : Bool :=
  f.common false && f.noMask && f.param && f.vd.toNat < 16 && f.va == 0#6 && f.vb == 0#6 && f.vc == 0#6 && f.sd == 0#6
def VSlot.wfReduce (f : VSlot) (rounds : Bool) : Bool :=
  f.common rounds && f.mz == 0#1 && f.noScalar && f.vd == 0#6 && f.vb == 0#6 && f.vc == 0#6
def VSlot.wfTwoSource (f : VSlot) (rounds : Bool) : Bool :=
  f.common rounds && f.noScalar && f.vc == 0#6 && f.sd == 0#6
def VSlot.wfVrot (f : VSlot) : Bool := f.common false && f.param && f.vb == 0#6 && f.vc == 0#6 && f.sd == 0#6
def VSlot.wfVbcast (f : VSlot) : Bool :=
  f.common false && f.vs == 0#1 && f.ss == 0#3 && f.imm.toNat < 64 && f.vb == 0#6 && f.vc == 0#6 && f.sd == 0#6
def VSlot.wfVext (f : VSlot) : Bool :=
  f.common false && f.noMask && f.vs == 0#1 && f.ss == 0#3 && f.imm.toNat < 64 && f.vd == 0#6 && f.vb == 0#6
    && f.vc == 0#6
def VSlot.wfVins (f : VSlot) : Bool :=
  f.common false && f.noMask && f.vs == 0#1 && f.ss != 7#3 && f.imm.toNat < 64 && f.va == 0#6 && f.vb == 0#6
    && f.vc == 0#6 && f.sd == 0#6
def VSlot.wfVmovi (f : VSlot) : Bool :=
  f.common false && f.param && f.va == 0#6 && f.vb == 0#6 && f.vc == 0#6 && f.sd == 0#6
/-- Forms whose IMM13[0] is H and that read no scalar. -/
def VSlot.wfHalf (f : VSlot) : Bool :=
  f.common false && f.vs == 0#1 && f.ss == 0#3 && f.imm.toNat < 2 && f.vb == 0#6 && f.vc == 0#6 && f.sd == 0#6
/-- VBPACK: SCM = IMM13[1:0], 3 illegal; the param is named only when SCM ≠ 0 (R158). -/
def VSlot.wfVbpack (f : VSlot) : Bool :=
  f.common true && f.noMask && f.vs == 0#1 && f.imm.toNat < 3 && f.ss != 7#3 && (f.imm != 0#13 || f.ss == 0#3)
    && f.vb == 0#6 && f.vc == 0#6 && f.sd == 0#6
def VSlot.wfParam (f : VSlot) : Bool := f.common true && f.param && f.vb == 0#6 && f.vc == 0#6 && f.sd == 0#6
def VSlot.wfRdw (f : VSlot) (rounds : Bool) : Bool :=
  f.common rounds && f.vs == 0#1 && f.ss != 7#3 && f.imm.toNat < 2 && f.vb == 0#6 && f.vc == 0#6 && f.sd == 0#6

/-! M slot (R104, Table 4.3). -/

/-- ANCHOR and ACCPIN name whole regions: AR a multiple of 16 with AR/16 + n ≤ 64. -/
def MSlot.regions (f : MSlot) : Bool := f.ar.toNat % 16 == 0 && f.ar.toNat / 16 + f.os.toNat + 1 ≤ 64
def MSlot.wfWload (f : MSlot) : Bool := f.ar == 0#10 && f.sb == 0#3 && f.sa == 0#3
def MSlot.wfWloadw (f : MSlot) : Bool := f.ar == 0#10 && f.ot == 0#6 && f.sb != 7#3 && f.sa != 7#3
def MSlot.wfStream (f : MSlot) : Bool := f.sb == 0#3 && f.sa != 7#3
def MSlot.wfStreamT (f : MSlot) : Bool := f.wfStream && f.ot == 0#6
def MSlot.wfDrain (f : MSlot) : Bool := f.ot == 0#6 && f.sb != 7#3 && f.sa != 7#3
def MSlot.wfDrainRdw (f : MSlot) : Bool := f.wfDrain && f.os == 0#6
def MSlot.wfAccclr (f : MSlot) : Bool := f.wfStream && f.ot == 0#6 && f.os == 0#6
def MSlot.wfAnchor (f : MSlot) : Bool := f.wfStream && f.ot == 0#6 && f.regions
def MSlot.wfClaim (f : MSlot) : Bool := f.wfWload && f.os.toNat ≤ f.ot.toNat
def MSlot.wfFmtsel (f : MSlot) : Bool :=
  f.ar == 0#10 && f.ot.toNat < 2 && f.os.toNat < 16 && f.sb == 0#3 && f.sa != 7#3 && (f.ot == 1#6 || f.sa == 0#3)
def MSlot.wfPin (f : MSlot) : Bool := f.ot == 0#6 && f.sb == 0#3 && f.sa == 0#3 && f.regions

/-! X slot (R219, Table 9.2; R174). -/

/-- No selector is 7 (the slot has no immediate), and ORD is zero outside SMATOM. -/
def XSlot.base (f : XSlot) : Bool := f.sa != 7#3 && f.sb != 7#3 && f.sc != 7#3 && f.sd != 7#3
def XSlot.plain (f : XSlot) : Bool := f.base && f.ord == 0#2 && f.sco == 0#3
def XSlot.wfCopy (f : XSlot) : Bool := f.plain && f.td == 0#6 && f.sd == 0#3
def XSlot.wfFour (f : XSlot) : Bool := f.plain && f.td == 0#6
def XSlot.wfLayreg (f : XSlot) : Bool := f.plain && f.sd == 0#3
def XSlot.wfLaydrop (f : XSlot) : Bool := f.plain && f.td == 0#6 && f.sb == 0#3 && f.sc == 0#3 && f.sd == 0#3
def XSlot.wfWmset (f : XSlot) : Bool := f.plain && f.td == 0#6 && f.sc == 0#3 && f.sd == 0#3 && f.sy == 0#4
def XSlot.wfSheet (f : XSlot) : Bool := f.plain && f.sb == 0#3 && f.sc == 0#3 && f.sd == 0#3
def XSlot.wfSmld (f : XSlot) (ordered : Bool) : Bool :=
  f.base && f.ord == 0#2 && (if ordered then scopeOk f.sco else f.sco == 0#3)
def XSlot.wfSmst (f : XSlot) (ordered : Bool) : Bool := f.wfSmld ordered && f.td == 0#6
def XSlot.wfSmatom (f : XSlot) (cas : Bool) : Bool :=
  f.base && (if f.ord == 0#2 then f.sco == 0#3 else scopeOk f.sco) && (cas || f.sd == 0#3)

/-! F slot (R267, Table 10.5). -/

def FSlot.port (f : FSlot) : Bool := f.pt.toNat ≤ 9
def FSlot.wfAddr (f : FSlot) : Bool := f.port && f.sb == 0#3 && f.sa != 7#3
def FSlot.wfPlain (f : FSlot) : Bool := f.port && f.sb == 0#3 && f.sa == 0#3
def FSlot.wfAcc (f : FSlot) : Bool := f.port && f.sb != 7#3 && f.sa != 7#3

/-! C slot (R301, Table 11.7; R210; Table 10.1; R258; Table 13.2). -/

def CSlot.wfNone (f : CSlot) : Bool := f.imm == 0#16 && f.p == 0#4 && f.sb == 0#3 && f.sa == 0#3
def CSlot.wfBrp (f : CSlot) : Bool := f.sb == 0#3 && f.sa == 0#3
def CSlot.wfIndirect (f : CSlot) : Bool := f.p == 0#4 && f.sb == 0#3 && (f.sa == 7#3 || f.imm == 0#16)
def CSlot.level (f : CSlot) : Bool := 1 ≤ f.p.toNat && f.p.toNat ≤ 6
def CSlot.wfLoop (f : CSlot) : Bool := f.level && f.sb == 0#3 && f.sa != 7#3
def CSlot.wfLend (f : CSlot) : Bool := f.level && f.sb == 0#3 && f.sa == 0#3
def CSlot.wfSem (f : CSlot) : Bool := f.p == 0#4 && f.sb != 7#3 && f.sa != 7#3
/-- PHREG: without BEN, BSEM is zero (11 R312). -/
def CSlot.wfPhreg (f : CSlot) : Bool := f.imm.toNat < 512 && (f.imm.getLsbD 8 || f.imm == 0#16) && f.p.toNat < 8 && f.sb != 7#3 && f.sa != 7#3
def CSlot.wfPharr (f : CSlot) : Bool := f.p.toNat < 8 && f.sa == 0#3 && (f.sb == 7#3 || f.imm == 0#16)
def CSlot.wfPhase (f : CSlot) : Bool := f.imm == 0#16 && f.p.toNat < 8 && f.sb == 0#3 && f.sa == 0#3
/-- FENCE: the scope code in P, P[3] zero (R42, R210). -/
def CSlot.wfFence (f : CSlot) : Bool := f.imm == 0#16 && f.p.toNat ≤ 5 && f.sb == 0#3 && f.sa == 0#3
def CSlot.wfAlign (f : CSlot) : Bool := f.p == 0#4 && f.sa != 7#3 && (f.sb == 7#3 || f.imm == 0#16)
def CSlot.wfCode (f : CSlot) : Bool := f.p == 0#4 && f.sb == 0#3 && f.sa == 0#3


/-- The encoding checks of R35, R42, R43, R45 and R47 that one operation's own fields decide, by the field-use table of
its slot. What the header decides (a selector that names a disabled port) is checked with the bundle. -/
def Instr.wf : Instr → Bool
  | .add f => f.wfBinary
  | .sub f => f.wfBinary
  | .and f => f.wfBinary
  | .or f => f.wfBinary
  | .xor f => f.wfBinary
  | .andn f => f.wfBinary
  | .orn f => f.wfBinary
  | .xnor f => f.wfBinary
  | .shl f => f.wfBinary
  | .shr f => f.wfBinary
  | .sar f => f.wfBinary
  | .rol f => f.wfBinary
  | .ror f => f.wfBinary
  | .shadd f => f.wfBinary
  | .abs f => f.wfUnary
  | .mul f => f.wfBinary
  | .mulhI f => f.wfBinary
  | .mulhN f => f.wfBinary
  | .mulhIn f => f.wfBinary
  | .mulwI f => f.wfBinary
  | .mulwN f => f.wfBinary
  | .divI f => f.wfBinary
  | .divN f => f.wfBinary
  | .remI f => f.wfBinary
  | .remN f => f.wfBinary
  | .minI f => f.wfBinary
  | .minN f => f.wfBinary
  | .maxI f => f.wfBinary
  | .maxN f => f.wfBinary
  | .addsI f => f.wfBinary
  | .addsN f => f.wfBinary
  | .subsI f => f.wfBinary
  | .subsN f => f.wfBinary
  | .clz f => f.wfUnary
  | .ctz f => f.wfUnary
  | .popc f => f.wfUnary
  | .brev f => f.wfUnary
  | .extrI f => f.wfBinary
  | .extrN f => f.wfBinary
  | .insr f => f.wfBinary
  | .sextI8 f => f.wfUnary
  | .sextI16 f => f.wfUnary
  | .sextI32 f => f.wfUnary
  | .cmpEq f => f.wfCompare
  | .cmpNe f => f.wfCompare
  | .cmpLtI f => f.wfCompare
  | .cmpLeI f => f.wfCompare
  | .cmpGtI f => f.wfCompare
  | .cmpGeI f => f.wfCompare
  | .cmpLtN f => f.wfCompare
  | .cmpLeN f => f.wfCompare
  | .cmpGtN f => f.wfCompare
  | .cmpGeN f => f.wfCompare
  | .tstAny f => f.wfCompare
  | .tstNone f => f.wfCompare
  | .sel f => f.wfSel
  | .movz f => f.wfMove
  | .movk f => f.wfMove
  | .movn f => f.wfMove
  | .pand f => f.wfPredLogic
  | .por f => f.wfPredLogic
  | .pxor f => f.wfPredLogic
  | .pandn f => f.wfPredLogic
  | .pmovs f => f.wfPmovs
  | .smovp f => f.wfSmovp
  | .csrr f => f.wfCsrRead
  | .csrw f => f.wfCsrWrite
  | .csrs f => f.wfCsrWrite
  | .csrc f => f.wfCsrWrite
  | .ktime f => f.wfKtime
  | .ldI8 f => f.wfLoad
  | .ldN8 f => f.wfLoad
  | .ldI16 f => f.wfLoad
  | .ldN16 f => f.wfLoad
  | .ldI32 f => f.wfLoad
  | .ldN32 f => f.wfLoad
  | .ld64 f => f.wfLoad
  | .ldN32Acq f => f.wfLoadOrd
  | .ld64Acq f => f.wfLoadOrd
  | .st8 f => f.wfStore
  | .st16 f => f.wfStore
  | .st32 f => f.wfStore
  | .st64 f => f.wfStore
  | .st32Rel f => f.wfStoreOrd
  | .st64Rel f => f.wfStoreOrd
  | .lda f => f.wfLoad
  | .ldaAcq f => f.wfLoadOrd
  | .sta f => f.wfStore
  | .staRel f => f.wfStoreOrd
  | .aadd f => f.wfAtomic
  | .aaddAcq f => f.wfAtomicOrd
  | .aaddRel f => f.wfAtomicOrd
  | .aaddAr f => f.wfAtomicOrd
  | .aswp f => f.wfAtomic
  | .aswpAcq f => f.wfAtomicOrd
  | .aswpRel f => f.wfAtomicOrd
  | .aswpAr f => f.wfAtomicOrd
  | .vld f => f.wfLoad
  | .vlds f => f.wfAtomic
  | .vst f => f.wfLoad
  | .vsts f => f.wfAtomic
  | .vaddF32 f => f.wfBinary true
  | .vaddF16 f => f.wfBinary true
  | .vaddBf16 f => f.wfBinary true
  | .vaddI32 f => f.wfBinary false
  | .vaddI16 f => f.wfBinary false
  | .vaddI8 f => f.wfBinary false
  | .vsubF32 f => f.wfBinary true
  | .vsubF16 f => f.wfBinary true
  | .vsubBf16 f => f.wfBinary true
  | .vsubI32 f => f.wfBinary false
  | .vsubI16 f => f.wfBinary false
  | .vsubI8 f => f.wfBinary false
  | .vmulF32 f => f.wfBinary true
  | .vmulF16 f => f.wfBinary true
  | .vmulBf16 f => f.wfBinary true
  | .vmulI32 f => f.wfBinary false
  | .vmulI16 f => f.wfBinary false
  | .vfmaF32 f => f.wfFma
  | .vfmaF16 f => f.wfFma
  | .vfmaBf16 f => f.wfFma
  | .vminF32 f => f.wfBinary false
  | .vminF16 f => f.wfBinary false
  | .vminBf16 f => f.wfBinary false
  | .vminI32 f => f.wfBinary false
  | .vmaxF32 f => f.wfBinary false
  | .vmaxF16 f => f.wfBinary false
  | .vmaxBf16 f => f.wfBinary false
  | .vmaxI32 f => f.wfBinary false
  | .vaddsI32 f => f.wfBinary false
  | .vaddsI16 f => f.wfBinary false
  | .vaddsI8 f => f.wfBinary false
  | .vaddsN8 f => f.wfBinary false
  | .vsubsI32 f => f.wfBinary false
  | .vsubsI16 f => f.wfBinary false
  | .vsubsI8 f => f.wfBinary false
  | .vsubsN8 f => f.wfBinary false
  | .vmulhI32 f => f.wfBinary false
  | .vmulhN32 f => f.wfBinary false
  | .vabsF32 f => f.wfUnary false
  | .vabsI32 f => f.wfUnary false
  | .vnegF32 f => f.wfUnary false
  | .vnegI32 f => f.wfUnary false
  | .vrcp f => f.wfUnary true
  | .vrsq f => f.wfUnary true
  | .vexp2 f => f.wfUnary true
  | .vlog2 f => f.wfUnary true
  | .vsqrt f => f.wfUnary true
  | .vand f => f.wfBinary false
  | .vor f => f.wfBinary false
  | .vxor f => f.wfBinary false
  | .vandn f => f.wfBinary false
  | .vshl f => f.wfBinary false
  | .vshr f => f.wfBinary false
  | .vsar f => f.wfBinary false
  | .vclz f => f.wfUnary false
  | .vpopc f => f.wfUnary false
  | .vcmpF32Eq f => f.wfCompare
  | .vcmpF32Ne f => f.wfCompare
  | .vcmpF32Lt f => f.wfCompare
  | .vcmpF32Le f => f.wfCompare
  | .vcmpF32Un f => f.wfCompare
  | .vcmpI32Eq f => f.wfCompare
  | .vcmpI32Ne f => f.wfCompare
  | .vcmpI32Lt f => f.wfCompare
  | .vcmpI32Le f => f.wfCompare
  | .vcmpN32Lt f => f.wfCompare
  | .vcmpN32Le f => f.wfCompare
  | .vsel f => f.wfVsel
  | .mand f => f.wfMaskLogic
  | .mor f => f.wfMaskLogic
  | .mxor f => f.wfMaskLogic
  | .mandn f => f.wfMaskLogic
  | .mtos f => f.wfMtos
  | .stom f => f.wfStom
  | .vraddF32 f => f.wfReduce true
  | .vraddI32 f => f.wfReduce false
  | .vrmaxF32 f => f.wfReduce false
  | .vrmaxI32 f => f.wfReduce false
  | .vrminF32 f => f.wfReduce false
  | .vrminI32 f => f.wfReduce false
  | .vperm f => f.wfTwoSource false
  | .vrot f => f.wfVrot
  | .vbcast f => f.wfVbcast
  | .vext f => f.wfVext
  | .vins f => f.wfVins
  | .vmov f => f.wfUnary false
  | .vmovi f => f.wfVmovi
  | .vcvtF16F32 f => f.wfTwoSource true
  | .vcvtBf16F32 f => f.wfTwoSource true
  | .vcvtF32F16 f => f.wfHalf
  | .vcvtF32Bf16 f => f.wfHalf
  | .vcvtI32F32 f => f.wfUnary true
  | .vcvtN32F32 f => f.wfUnary true
  | .vcvtF32I32 f => f.wfUnary true
  | .vcvtF32N32 f => f.wfUnary true
  | .vtologLb8 f => f.wfUnary true
  | .vtologLb6 f => f.wfUnary true
  | .vtologLb4 f => f.wfUnary true
  | .vtologLm16 f => f.wfTwoSource true
  | .vfromlogLb8 f => f.wfUnary true
  | .vfromlogLb6 f => f.wfUnary true
  | .vfromlogLb4 f => f.wfUnary true
  | .vfromlogLm16 f => f.wfHalf
  | .vbpackLb8 f => f.wfVbpack
  | .vbpackLb6 f => f.wfVbpack
  | .vbpackLb4 f => f.wfVbpack
  | .vbunpLb8 f => f.wfUnary true
  | .vbunpLb6 f => f.wfUnary true
  | .vbunpLb4 f => f.wfUnary true
  | .vtordwF32 f => f.wfRdw false
  | .vtordwA64 f => f.wfRdw false
  | .vfromrdwF32 f => f.wfRdw true
  | .vfromrdwA64 f => f.wfRdw true
  | .vaddrdw f => f.wfTwoSource false
  | .vcvtaF32 f => f.wfParam
  | .vcvtaA64 f => f.wfParam
  | .nop => true
  | .nopF => true
  | .nopC => true
  | .regionOpen => true
  | .bankLock => true
  | .wload f => f.wfWload
  | .wloadw f => f.wfWloadw
  | .streamAdd f => f.wfStream
  | .streamOvw f => f.wfStream
  | .streamTAdd f => f.wfStreamT
  | .streamTOvw f => f.wfStreamT
  | .drain f => f.wfDrain
  | .drainRdw f => f.wfDrainRdw
  | .accclr f => f.wfAccclr
  | .anchor f => f.wfAnchor
  | .oclaim f => f.wfClaim
  | .orelease f => f.wfClaim
  | .fmtsel f => f.wfFmtsel
  | .accpin f => f.wfPin
  | .accpinClr f => f.wfPin
  | .copy f => f.wfCopy
  | .gather f => f.wfFour
  | .scatter f => f.wfFour
  | .get f => f.wfCopy
  | .put f => f.wfCopy
  | .layreg f => f.wfLayreg
  | .laydrop f => f.wfLaydrop
  | .wmset f => f.wfWmset
  | .smalloc f => f.wfSheet
  | .smfree f => f.wfSheet
  | .smquery f => f.wfSheet
  | .smld f => f.wfSmld false
  | .smldAcq f => f.wfSmld true
  | .smst f => f.wfSmst false
  | .smstRel f => f.wfSmst true
  | .smatomAdd f => f.wfSmatom false
  | .smatomSwap f => f.wfSmatom false
  | .smatomCas f => f.wfSmatom true
  | .smatomMinI f => f.wfSmatom false
  | .smatomMaxI f => f.wfSmatom false
  | .smatomMinN f => f.wfSmatom false
  | .smatomMaxN f => f.wfSmatom false
  | .burnishUpdate f => f.wfFour
  | .burnishRecipeLoad f => f.wfFour
  | .send f => f.wfAddr
  | .recv f => f.wfAddr
  | .recvaddReg f => f.wfPlain
  | .recvaddAcc f => f.wfAcc
  | .relay f => f.wfPlain
  | .br _ => true
  | .brpT f => f.wfBrp
  | .brpF f => f.wfBrp
  | .bri f => f.wfIndirect
  | .call _ => true
  | .calli f => f.wfIndirect
  | .ret f => f.wfNone
  | .loop f => f.wfLoop
  | .lend f => f.wfLend
  | .semw f => f.wfSem
  | .sems f => f.wfSem
  | .phregSig f => f.wfPhreg
  | .phregWait f => f.wfPhreg
  | .phregSw f => f.wfPhreg
  | .pharr f => f.wfPharr
  | .phwait f => f.wfPhase
  | .phdrop f => f.wfPhase
  | .fence f => f.wfFence
  | .yield f => f.wfNone
  | .halt f => f.wfNone
  | .align f => f.wfAlign
  | .ftrbeg f => f.wfNone
  | .ftrend f => f.wfNone
  | .trap f => f.wfCode
  | .eret f => f.wfNone
  | .eres f => f.wfNone
  | .park f => f.wfCode
  | .unparkReturn f => f.wfAlign
  | .unparkResume f => f.wfAlign
  | .unparkRedirect f => f.wfAlign
  | .unparkEnd f => f.wfAlign
  | .resultLanding => true
  | .lateResultLanding => true
  | .lazyRegisterFill => true
  | .matrixCommandBegin => true
  | .matrixCommandCompletion => true
  | .engineStep => true
  | .engineFaultTaken => true
  | .copyCommandBegin => true
  | .copyCommandCompletion => true
  | .burnishBegin => true
  | .burnishCompletion => true
  | .fabricCommandCompletion => true
  | .beatArrival => true
  | .translationWalkComplete => true
  | .farAcquireReply => true
  | .trapEntry => true
  | .faultQueueRetest => true
  | .quantumExpiry => true
  | .regionLimitExpiry => true
  | .ftrTimerExpiry => true
  | .progressWatchdog => true
  | .preemptionRequest => true
  | .lazyPreemption => true
  | .urgentPreemption => true
  | .contextSave => true
  | .contextRestore => true
  | .launchRecordPost => true
  | .launchHeadCheck => true
  | .launchFire => true
  | .instanceStart => true
  | .memberPlace => true
  | .contextEnd => true
  | .compaction => true
  | .masterElection => true
  | .scrub => true
  | .beaconSend => true
  | .beaconReceive => true
  | .parentBeaconTimeout => true
  | .stretchAnnounce => true
  | .powerWindowEnd => true
  | .clockStepChange => true
  | .dieFence => true
  | .keyDieRedesignation => true
  | .linkDown => true
  | .linkTraining => true
  | .flitReplay => true
  | .remoteRequestTimeout => true
  | .remoteRequestArrival => true
  | .switchLossDeclared => true
  | .mirrorFailoverComplete => true
  | .sheetTableUpdate => true
  | .patrolRewrite => true
  | .packageReset => true
  | .nonRocePacket => true
  | .rdmaRead => true
  | .rdmaWrite => true
  | .tenset => true
  | .rngset => true
  | .inval => true
  | .invalReply => true
  | .pinq => true
  | .keyload => true
  | .keydrop => true
  | .keydropReply => true
  | .quota => true
  | .qpset => true
  | .lsem => true
  | .status => true
  | .attest => true
  | .pwrq => true
  | .pwrset => true
  | .errq => true
  | .fwload => true
  | .reset => true
  | .regset => true
  | .regsetReply => true
  | .illegalCodeWord => true
  | .unassignedOpcode => true
  | .contextLost => true
  | .resetnAssert => true
  | .unknownManagementOpc => true

end Sys2Proof
end

