-- ==== Sys2Proof/Decode.lean ====
section
/-! DEFINITION. The decoder of slot words, total on any bits and refusing by name, the fields of a bundle, and after them
the encoder (02, Tables 2.2 to 2.18). -/

namespace Sys2Proof

/-- Why a slot word is an illegal encoding (R47). -/
inductive DecodeError where
  /-- The opcode value is not assigned in Tables 2.13 to 2.18. -/
  | unassigned
  /-- A reserved field is nonzero, or a field holds a value its form does not allow. -/
  | illegalField
  deriving DecidableEq, Repr

/-- The slot kinds of Table 2.2; S0 and S1 share one. -/
inductive SlotKind where
  | s | l | v | m | x | f | c
  deriving DecidableEq, Repr

/-- The `n` bits of `w` from bit `lo` up, as a field. -/
def fieldOf (w lo n : Nat) : BitVec n := BitVec.ofNat n (w / 2 ^ lo)

def SSlot.ofWord (w : Nat) : SSlot :=
  { imm := fieldOf w 24 16, gn := fieldOf w 23 1, g := fieldOf w 19 4, sb := fieldOf w 16 3, sa := fieldOf w 13 3,
    d := fieldOf w 7 6 }
def LSlot.ofWord (w : Nat) : LSlot :=
  { off := fieldOf w 26 14, gn := fieldOf w 25 1, g := fieldOf w 21 4, sc := fieldOf w 18 3, sb := fieldOf w 15 3,
    sa := fieldOf w 12 3, t := fieldOf w 6 6 }
def VSlot.ofWord (w : Nat) : VSlot :=
  { imm := fieldOf w 51 13, vs := fieldOf w 50 1, sd := fieldOf w 44 6, ss := fieldOf w 41 3, rm := fieldOf w 38 3,
    mz := fieldOf w 37 1, me := fieldOf w 36 1, mkr := fieldOf w 32 4, vc := fieldOf w 26 6, vb := fieldOf w 20 6,
    va := fieldOf w 14 6, vd := fieldOf w 8 6 }
def MSlot.ofWord (w : Nat) : MSlot :=
  { ar := fieldOf w 27 10, ot := fieldOf w 21 6, os := fieldOf w 15 6, sb := fieldOf w 12 3, sa := fieldOf w 9 3,
    sy := fieldOf w 5 4 }
def XSlot.ofWord (w : Nat) : XSlot :=
  { td := fieldOf w 30 6, ord := fieldOf w 28 2, sco := fieldOf w 25 3, ch := fieldOf w 22 3, sd := fieldOf w 19 3,
    sc := fieldOf w 16 3, sb := fieldOf w 13 3, sa := fieldOf w 10 3, sy := fieldOf w 6 4 }
def FSlot.ofWord (w : Nat) : FSlot :=
  { n := fieldOf w 18 6, sb := fieldOf w 15 3, sa := fieldOf w 12 3, pt := fieldOf w 8 4, sy := fieldOf w 4 4 }
def CSlot.ofWord (w : Nat) : CSlot :=
  { imm := fieldOf w 16 16, p := fieldOf w 12 4, sb := fieldOf w 9 3, sa := fieldOf w 6 3 }
def CJump.ofWord (w : Nat) : CJump := { disp := fieldOf w 12 20 }


/-- The form each opcode of the S slot names (Tables 2.13 to 2.18); `none` where the value is unassigned. -/
def formS : Nat → Option (SSlot → Instr)
  | 0x01 => some .add
  | 0x02 => some .sub
  | 0x03 => some .and
  | 0x04 => some .or
  | 0x05 => some .xor
  | 0x06 => some .andn
  | 0x07 => some .orn
  | 0x08 => some .xnor
  | 0x09 => some .shl
  | 0x0A => some .shr
  | 0x0B => some .sar
  | 0x0C => some .rol
  | 0x0D => some .ror
  | 0x0E => some .shadd
  | 0x0F => some .abs
  | 0x10 => some .mul
  | 0x11 => some .mulhI
  | 0x12 => some .mulhN
  | 0x13 => some .mulhIn
  | 0x14 => some .mulwI
  | 0x15 => some .mulwN
  | 0x16 => some .divI
  | 0x17 => some .divN
  | 0x18 => some .remI
  | 0x19 => some .remN
  | 0x1A => some .minI
  | 0x1B => some .minN
  | 0x1C => some .maxI
  | 0x1D => some .maxN
  | 0x1E => some .addsI
  | 0x1F => some .addsN
  | 0x20 => some .subsI
  | 0x21 => some .subsN
  | 0x22 => some .clz
  | 0x23 => some .ctz
  | 0x24 => some .popc
  | 0x25 => some .brev
  | 0x26 => some .extrI
  | 0x27 => some .extrN
  | 0x28 => some .insr
  | 0x29 => some .sextI8
  | 0x2A => some .sextI16
  | 0x2B => some .sextI32
  | 0x30 => some .cmpEq
  | 0x31 => some .cmpNe
  | 0x32 => some .cmpLtI
  | 0x33 => some .cmpLeI
  | 0x34 => some .cmpGtI
  | 0x35 => some .cmpGeI
  | 0x36 => some .cmpLtN
  | 0x37 => some .cmpLeN
  | 0x38 => some .cmpGtN
  | 0x39 => some .cmpGeN
  | 0x3A => some .tstAny
  | 0x3B => some .tstNone
  | 0x3C => some .sel
  | 0x40 => some .movz
  | 0x41 => some .movk
  | 0x42 => some .movn
  | 0x43 => some .pand
  | 0x44 => some .por
  | 0x45 => some .pxor
  | 0x46 => some .pandn
  | 0x47 => some .pmovs
  | 0x48 => some .smovp
  | 0x50 => some .csrr
  | 0x51 => some .csrw
  | 0x52 => some .csrs
  | 0x53 => some .csrc
  | 0x54 => some .ktime
  | _ => none

/-- The form each opcode of the L slot names (Tables 2.13 to 2.18); `none` where the value is unassigned. -/
def formL : Nat → Option (LSlot → Instr)
  | 0x01 => some .ldI8
  | 0x02 => some .ldN8
  | 0x03 => some .ldI16
  | 0x04 => some .ldN16
  | 0x05 => some .ldI32
  | 0x06 => some .ldN32
  | 0x07 => some .ld64
  | 0x08 => some .ldN32Acq
  | 0x09 => some .ld64Acq
  | 0x0A => some .st8
  | 0x0B => some .st16
  | 0x0C => some .st32
  | 0x0D => some .st64
  | 0x0E => some .st32Rel
  | 0x0F => some .st64Rel
  | 0x10 => some .lda
  | 0x11 => some .ldaAcq
  | 0x12 => some .sta
  | 0x13 => some .staRel
  | 0x14 => some .aadd
  | 0x15 => some .aaddAcq
  | 0x16 => some .aaddRel
  | 0x17 => some .aaddAr
  | 0x18 => some .aswp
  | 0x19 => some .aswpAcq
  | 0x1A => some .aswpRel
  | 0x1B => some .aswpAr
  | 0x1C => some .vld
  | 0x1D => some .vlds
  | 0x1E => some .vst
  | 0x1F => some .vsts
  | _ => none

/-- The form each opcode of the V slot names (Tables 2.13 to 2.18); `none` where the value is unassigned. -/
def formV : Nat → Option (VSlot → Instr)
  | 0x01 => some .vaddF32
  | 0x02 => some .vaddF16
  | 0x03 => some .vaddBf16
  | 0x04 => some .vaddI32
  | 0x05 => some .vaddI16
  | 0x06 => some .vaddI8
  | 0x07 => some .vsubF32
  | 0x08 => some .vsubF16
  | 0x09 => some .vsubBf16
  | 0x0A => some .vsubI32
  | 0x0B => some .vsubI16
  | 0x0C => some .vsubI8
  | 0x0D => some .vmulF32
  | 0x0E => some .vmulF16
  | 0x0F => some .vmulBf16
  | 0x10 => some .vmulI32
  | 0x11 => some .vmulI16
  | 0x12 => some .vfmaF32
  | 0x13 => some .vfmaF16
  | 0x14 => some .vfmaBf16
  | 0x15 => some .vminF32
  | 0x16 => some .vminF16
  | 0x17 => some .vminBf16
  | 0x18 => some .vminI32
  | 0x19 => some .vmaxF32
  | 0x1A => some .vmaxF16
  | 0x1B => some .vmaxBf16
  | 0x1C => some .vmaxI32
  | 0x1D => some .vaddsI32
  | 0x1E => some .vaddsI16
  | 0x1F => some .vaddsI8
  | 0x20 => some .vaddsN8
  | 0x21 => some .vsubsI32
  | 0x22 => some .vsubsI16
  | 0x23 => some .vsubsI8
  | 0x24 => some .vsubsN8
  | 0x25 => some .vmulhI32
  | 0x26 => some .vmulhN32
  | 0x27 => some .vabsF32
  | 0x28 => some .vabsI32
  | 0x29 => some .vnegF32
  | 0x2A => some .vnegI32
  | 0x2B => some .vrcp
  | 0x2C => some .vrsq
  | 0x2D => some .vexp2
  | 0x2E => some .vlog2
  | 0x2F => some .vsqrt
  | 0x30 => some .vand
  | 0x31 => some .vor
  | 0x32 => some .vxor
  | 0x33 => some .vandn
  | 0x34 => some .vshl
  | 0x35 => some .vshr
  | 0x36 => some .vsar
  | 0x37 => some .vclz
  | 0x38 => some .vpopc
  | 0x40 => some .vcmpF32Eq
  | 0x41 => some .vcmpF32Ne
  | 0x42 => some .vcmpF32Lt
  | 0x43 => some .vcmpF32Le
  | 0x44 => some .vcmpF32Un
  | 0x45 => some .vcmpI32Eq
  | 0x46 => some .vcmpI32Ne
  | 0x47 => some .vcmpI32Lt
  | 0x48 => some .vcmpI32Le
  | 0x49 => some .vcmpN32Lt
  | 0x4A => some .vcmpN32Le
  | 0x4B => some .vsel
  | 0x4C => some .mand
  | 0x4D => some .mor
  | 0x4E => some .mxor
  | 0x4F => some .mandn
  | 0x50 => some .mtos
  | 0x51 => some .stom
  | 0x60 => some .vraddF32
  | 0x61 => some .vraddI32
  | 0x62 => some .vrmaxF32
  | 0x63 => some .vrmaxI32
  | 0x64 => some .vrminF32
  | 0x65 => some .vrminI32
  | 0x66 => some .vperm
  | 0x67 => some .vrot
  | 0x68 => some .vbcast
  | 0x69 => some .vext
  | 0x6A => some .vins
  | 0x6B => some .vmov
  | 0x6C => some .vmovi
  | 0x80 => some .vcvtF16F32
  | 0x81 => some .vcvtBf16F32
  | 0x82 => some .vcvtF32F16
  | 0x83 => some .vcvtF32Bf16
  | 0x84 => some .vcvtI32F32
  | 0x85 => some .vcvtN32F32
  | 0x86 => some .vcvtF32I32
  | 0x87 => some .vcvtF32N32
  | 0x88 => some .vtologLb8
  | 0x89 => some .vtologLb6
  | 0x8A => some .vtologLb4
  | 0x8B => some .vtologLm16
  | 0x8C => some .vfromlogLb8
  | 0x8D => some .vfromlogLb6
  | 0x8E => some .vfromlogLb4
  | 0x8F => some .vfromlogLm16
  | 0x90 => some .vbpackLb8
  | 0x91 => some .vbpackLb6
  | 0x92 => some .vbpackLb4
  | 0x93 => some .vbunpLb8
  | 0x94 => some .vbunpLb6
  | 0x95 => some .vbunpLb4
  | 0x96 => some .vtordwF32
  | 0x97 => some .vtordwA64
  | 0x98 => some .vfromrdwF32
  | 0x99 => some .vfromrdwA64
  | 0x9A => some .vaddrdw
  | 0x9B => some .vcvtaF32
  | 0x9C => some .vcvtaA64
  | _ => none

/-- The form each opcode of the M slot names (Tables 2.13 to 2.18); `none` where the value is unassigned. -/
def formM : Nat → Option (MSlot → Instr)
  | 0x01 => some .wload
  | 0x02 => some .wloadw
  | 0x03 => some .streamAdd
  | 0x04 => some .streamOvw
  | 0x05 => some .streamTAdd
  | 0x06 => some .streamTOvw
  | 0x07 => some .drain
  | 0x08 => some .drainRdw
  | 0x09 => some .accclr
  | 0x0A => some .anchor
  | 0x0B => some .oclaim
  | 0x0C => some .orelease
  | 0x0D => some .fmtsel
  | 0x0E => some .accpin
  | 0x0F => some .accpinClr
  | _ => none

/-- The form each opcode of the X slot names (Tables 2.13 to 2.18); `none` where the value is unassigned. -/
noncomputable def formX : Nat → Option (XSlot → Instr)
  | 0x01 => some .copy
  | 0x02 => some .gather
  | 0x03 => some .scatter
  | 0x04 => some .get
  | 0x05 => some .put
  | 0x06 => some .layreg
  | 0x07 => some .laydrop
  | 0x08 => some .wmset
  | 0x10 => some .smalloc
  | 0x11 => some .smfree
  | 0x12 => some .smquery
  | 0x13 => some .smld
  | 0x14 => some .smldAcq
  | 0x15 => some .smst
  | 0x16 => some .smstRel
  | 0x17 => some .smatomAdd
  | 0x18 => some .smatomSwap
  | 0x19 => some .smatomCas
  | 0x1A => some .smatomMinI
  | 0x1B => some .smatomMaxI
  | 0x1C => some .smatomMinN
  | 0x1D => some .smatomMaxN
  | 0x20 => some .burnishUpdate
  | _ => none

/-- The form each opcode of the F slot names (Tables 2.13 to 2.18); `none` where the value is unassigned. -/
noncomputable def formF : Nat → Option (FSlot → Instr)
  | 0x01 => some .send
  | 0x02 => some .recv
  | 0x03 => some .recvaddReg
  | 0x04 => some .recvaddAcc
  | 0x05 => some .relay
  | _ => none

/-- The form each opcode of the C slot names (Tables 2.13 to 2.18); `none` where the value is unassigned. -/
noncomputable def formC : Nat → Option (CSlot → Instr)
  | 0x02 => some .brpT
  | 0x03 => some .brpF
  | 0x04 => some .bri
  | 0x06 => some .calli
  | 0x07 => some .ret
  | 0x08 => some .loop
  | 0x09 => some .lend
  | 0x10 => some .semw
  | 0x11 => some .sems
  | 0x12 => some .phregSig
  | 0x13 => some .phregWait
  | 0x14 => some .phregSw
  | 0x15 => some .pharr
  | 0x16 => some .phwait
  | 0x17 => some .phdrop
  | 0x18 => some .fence
  | 0x19 => some .yield
  | 0x1A => some .halt
  | 0x20 => some .align
  | 0x21 => some .ftrbeg
  | 0x22 => some .ftrend
  | 0x30 => some .trap
  | 0x31 => some .eret
  | 0x32 => some .eres
  | 0x33 => some .park
  | 0x34 => some .unparkReturn
  | _ => none

/-- BR and CALL, the forms in the C-J layout (R45). -/
noncomputable def formJ : Nat → Option (CJump → Instr)
  | 0x01 => some .br
  | 0x05 => some .call
  | _ => none

/-- The selector of operand B of a V form (R140). -/
def VSlot.selB (f : VSlot) : List (BitVec 3) := if f.vs = 1#1 then [f.ss] else []

/-- The selectors an operation uses, by the field-use tables. A zero in a field the form does not use names no port (R35). -/
def Instr.selectors : Instr → List (BitVec 3)
  | .add f => [f.sa, f.sb]
  | .sub f => [f.sa, f.sb]
  | .and f => [f.sa, f.sb]
  | .or f => [f.sa, f.sb]
  | .xor f => [f.sa, f.sb]
  | .andn f => [f.sa, f.sb]
  | .orn f => [f.sa, f.sb]
  | .xnor f => [f.sa, f.sb]
  | .shl f => [f.sa, f.sb]
  | .shr f => [f.sa, f.sb]
  | .sar f => [f.sa, f.sb]
  | .rol f => [f.sa, f.sb]
  | .ror f => [f.sa, f.sb]
  | .shadd f => [f.sa, f.sb]
  | .abs f => [f.sa]
  | .mul f => [f.sa, f.sb]
  | .mulhI f => [f.sa, f.sb]
  | .mulhN f => [f.sa, f.sb]
  | .mulhIn f => [f.sa, f.sb]
  | .mulwI f => [f.sa, f.sb]
  | .mulwN f => [f.sa, f.sb]
  | .divI f => [f.sa, f.sb]
  | .divN f => [f.sa, f.sb]
  | .remI f => [f.sa, f.sb]
  | .remN f => [f.sa, f.sb]
  | .minI f => [f.sa, f.sb]
  | .minN f => [f.sa, f.sb]
  | .maxI f => [f.sa, f.sb]
  | .maxN f => [f.sa, f.sb]
  | .addsI f => [f.sa, f.sb]
  | .addsN f => [f.sa, f.sb]
  | .subsI f => [f.sa, f.sb]
  | .subsN f => [f.sa, f.sb]
  | .clz f => [f.sa]
  | .ctz f => [f.sa]
  | .popc f => [f.sa]
  | .brev f => [f.sa]
  | .extrI f => [f.sa, f.sb]
  | .extrN f => [f.sa, f.sb]
  | .insr f => [f.sa, f.sb]
  | .sextI8 f => [f.sa]
  | .sextI16 f => [f.sa]
  | .sextI32 f => [f.sa]
  | .cmpEq f => [f.sa, f.sb]
  | .cmpNe f => [f.sa, f.sb]
  | .cmpLtI f => [f.sa, f.sb]
  | .cmpLeI f => [f.sa, f.sb]
  | .cmpGtI f => [f.sa, f.sb]
  | .cmpGeI f => [f.sa, f.sb]
  | .cmpLtN f => [f.sa, f.sb]
  | .cmpLeN f => [f.sa, f.sb]
  | .cmpGtN f => [f.sa, f.sb]
  | .cmpGeN f => [f.sa, f.sb]
  | .tstAny f => [f.sa, f.sb]
  | .tstNone f => [f.sa, f.sb]
  | .sel f => [f.sa, f.sb]
  | .smovp f => [f.sa]
  | .csrw f => [f.sa]
  | .csrs f => [f.sa]
  | .csrc f => [f.sa]
  | .ldI8 f => [f.sa]
  | .ldN8 f => [f.sa]
  | .ldI16 f => [f.sa]
  | .ldN16 f => [f.sa]
  | .ldI32 f => [f.sa]
  | .ldN32 f => [f.sa]
  | .ld64 f => [f.sa]
  | .ldN32Acq f => [f.sa]
  | .ld64Acq f => [f.sa]
  | .st8 f => [f.sa, f.sb]
  | .st16 f => [f.sa, f.sb]
  | .st32 f => [f.sa, f.sb]
  | .st64 f => [f.sa, f.sb]
  | .st32Rel f => [f.sa, f.sb]
  | .st64Rel f => [f.sa, f.sb]
  | .lda f => [f.sa]
  | .ldaAcq f => [f.sa]
  | .sta f => [f.sa, f.sb]
  | .staRel f => [f.sa, f.sb]
  | .aadd f => [f.sa, f.sb]
  | .aaddAcq f => [f.sa, f.sb]
  | .aaddRel f => [f.sa, f.sb]
  | .aaddAr f => [f.sa, f.sb]
  | .aswp f => [f.sa, f.sb]
  | .aswpAcq f => [f.sa, f.sb]
  | .aswpRel f => [f.sa, f.sb]
  | .aswpAr f => [f.sa, f.sb]
  | .vld f => [f.sa]
  | .vlds f => [f.sa, f.sb]
  | .vst f => [f.sa]
  | .vsts f => [f.sa, f.sb]
  | .vaddF32 f => f.selB
  | .vaddF16 f => f.selB
  | .vaddBf16 f => f.selB
  | .vaddI32 f => f.selB
  | .vaddI16 f => f.selB
  | .vaddI8 f => f.selB
  | .vsubF32 f => f.selB
  | .vsubF16 f => f.selB
  | .vsubBf16 f => f.selB
  | .vsubI32 f => f.selB
  | .vsubI16 f => f.selB
  | .vsubI8 f => f.selB
  | .vmulF32 f => f.selB
  | .vmulF16 f => f.selB
  | .vmulBf16 f => f.selB
  | .vmulI32 f => f.selB
  | .vmulI16 f => f.selB
  | .vfmaF32 f => f.selB
  | .vfmaF16 f => f.selB
  | .vfmaBf16 f => f.selB
  | .vminF32 f => f.selB
  | .vminF16 f => f.selB
  | .vminBf16 f => f.selB
  | .vminI32 f => f.selB
  | .vmaxF32 f => f.selB
  | .vmaxF16 f => f.selB
  | .vmaxBf16 f => f.selB
  | .vmaxI32 f => f.selB
  | .vaddsI32 f => f.selB
  | .vaddsI16 f => f.selB
  | .vaddsI8 f => f.selB
  | .vaddsN8 f => f.selB
  | .vsubsI32 f => f.selB
  | .vsubsI16 f => f.selB
  | .vsubsI8 f => f.selB
  | .vsubsN8 f => f.selB
  | .vmulhI32 f => f.selB
  | .vmulhN32 f => f.selB
  | .vand f => f.selB
  | .vor f => f.selB
  | .vxor f => f.selB
  | .vandn f => f.selB
  | .vshl f => f.selB
  | .vshr f => f.selB
  | .vsar f => f.selB
  | .vcmpF32Eq f => f.selB
  | .vcmpF32Ne f => f.selB
  | .vcmpF32Lt f => f.selB
  | .vcmpF32Le f => f.selB
  | .vcmpF32Un f => f.selB
  | .vcmpI32Eq f => f.selB
  | .vcmpI32Ne f => f.selB
  | .vcmpI32Lt f => f.selB
  | .vcmpI32Le f => f.selB
  | .vcmpN32Lt f => f.selB
  | .vcmpN32Le f => f.selB
  | .vsel f => f.selB
  | .stom f => [f.ss]
  | .vrot f => [f.ss]
  | .vins f => [f.ss]
  | .vmovi f => [f.ss]
  | .vbpackLb8 f => if f.imm = 0#13 then [] else [f.ss]
  | .vbpackLb6 f => if f.imm = 0#13 then [] else [f.ss]
  | .vbpackLb4 f => if f.imm = 0#13 then [] else [f.ss]
  | .vtordwF32 f => [f.ss]
  | .vtordwA64 f => [f.ss]
  | .vfromrdwF32 f => [f.ss]
  | .vfromrdwA64 f => [f.ss]
  | .vcvtaF32 f => [f.ss]
  | .vcvtaA64 f => [f.ss]
  | .wloadw f => [f.sa, f.sb]
  | .streamAdd f => [f.sa]
  | .streamOvw f => [f.sa]
  | .streamTAdd f => [f.sa]
  | .streamTOvw f => [f.sa]
  | .drain f => [f.sa, f.sb]
  | .drainRdw f => [f.sa, f.sb]
  | .accclr f => [f.sa]
  | .anchor f => [f.sa]
  | .fmtsel f => if f.ot = 1#6 then [f.sa] else []
  | .copy f => [f.sa, f.sb, f.sc]
  | .gather f => [f.sa, f.sb, f.sc, f.sd]
  | .scatter f => [f.sa, f.sb, f.sc, f.sd]
  | .get f => [f.sa, f.sb, f.sc]
  | .put f => [f.sa, f.sb, f.sc]
  | .layreg f => [f.sa, f.sb, f.sc]
  | .laydrop f => [f.sa]
  | .wmset f => [f.sa, f.sb]
  | .smalloc f => [f.sa]
  | .smfree f => [f.sa]
  | .smquery f => [f.sa]
  | .smld f => [f.sa, f.sb, f.sc, f.sd]
  | .smldAcq f => [f.sa, f.sb, f.sc, f.sd]
  | .smst f => [f.sa, f.sb, f.sc, f.sd]
  | .smstRel f => [f.sa, f.sb, f.sc, f.sd]
  | .smatomAdd f => [f.sa, f.sb, f.sc]
  | .smatomSwap f => [f.sa, f.sb, f.sc]
  | .smatomCas f => [f.sa, f.sb, f.sc, f.sd]
  | .smatomMinI f => [f.sa, f.sb, f.sc]
  | .smatomMaxI f => [f.sa, f.sb, f.sc]
  | .smatomMinN f => [f.sa, f.sb, f.sc]
  | .smatomMaxN f => [f.sa, f.sb, f.sc]
  | .burnishUpdate f => [f.sa, f.sb, f.sc, f.sd]
  | .burnishRecipeLoad f => [f.sa, f.sb, f.sc, f.sd]
  | .send f => [f.sa]
  | .recv f => [f.sa]
  | .recvaddAcc f => [f.sa, f.sb]
  | .bri f => [f.sa]
  | .calli f => [f.sa]
  | .loop f => [f.sa]
  | .semw f => [f.sa, f.sb]
  | .sems f => [f.sa, f.sb]
  | .phregSig f => [f.sa, f.sb]
  | .phregWait f => [f.sa, f.sb]
  | .phregSw f => [f.sa, f.sb]
  | .pharr f => [f.sb]
  | .align f => [f.sa, f.sb]
  | .unparkReturn f => [f.sa, f.sb]
  | .unparkResume f => [f.sa, f.sb]
  | .unparkRedirect f => [f.sa, f.sb]
  | .unparkEnd f => [f.sa, f.sb]
  | _ => []

/-- Accept an operation whose fields are well formed. -/
def accept (i : Instr) : Except DecodeError Instr := if i.wf then .ok i else .error .illegalField

/-- The refusal of a word whose opcode names no form: opcode 0 is NOP, whose other bits must be zero (R49). -/
def noForm (op : Nat) : Except DecodeError Instr := if op = 0 then .error .illegalField else .error .unassigned

def decodeS (w : Nat) : Except DecodeError Instr :=
  if w = 0 then .ok .nop else
  match formS (w % 128) with
  | some k => accept (k (SSlot.ofWord w))
  | none => noForm (w % 128)

def decodeL (w : Nat) : Except DecodeError Instr :=
  if w = 0 then .ok .nop else
  match formL (w % 64) with
  | some k => accept (k (LSlot.ofWord w))
  | none => noForm (w % 64)

/-- Bits [31:14] hold the register fields from bit 8 up: VD is [13:8], so no bit of the layout is reserved. -/
def decodeV (w : Nat) : Except DecodeError Instr :=
  if w = 0 then .ok .nop else
  match formV (w % 256) with
  | some k => accept (k (VSlot.ofWord w))
  | none => noForm (w % 256)

/-- Bits [39:37] are reserved (Table 2.10). -/
def decodeM (w : Nat) : Except DecodeError Instr :=
  if w = 0 then .ok .nop else
  match formM (w % 32) with
  | some k => if w / 2 ^ 37 % 8 = 0 then accept (k (MSlot.ofWord w)) else .error .illegalField
  | none => noForm (w % 32)

/-- Bits [39:36] are reserved (Table 2.11). BURNISH decodes as its update mode: the control word it reads selects the mode. -/
noncomputable def decodeX (w : Nat) : Except DecodeError Instr :=
  if w = 0 then .ok .nop else
  match formX (w % 64) with
  | some k => if w / 2 ^ 36 % 16 = 0 then accept (k (XSlot.ofWord w)) else .error .illegalField
  | none => noForm (w % 64)

noncomputable def decodeF (w : Nat) : Except DecodeError Instr :=
  if w = 0 then .ok .nopF else
  match formF (w % 16) with
  | some k => accept (k (FSlot.ofWord w))
  | none => noForm (w % 16)

/-- BR and CALL use C-J, whose bits [11:6] are reserved; every other form uses C-R (R45). UNPARK decodes as its action 0: the
operand b selects the action. -/
noncomputable def decodeC (w : Nat) : Except DecodeError Instr :=
  if w = 0 then .ok .nopC else
  match formJ (w % 64) with
  | some k => if w / 2 ^ 6 % 64 = 0 then accept (k (CJump.ofWord w)) else .error .illegalField
  | none =>
    match formC (w % 64) with
    | some k => accept (k (CSlot.ofWord w))
    | none => noForm (w % 64)

/-- The decoder of one slot kind. -/
noncomputable def decodeSlot : SlotKind → Nat → Except DecodeError Instr
  | .s => decodeS
  | .l => decodeL
  | .v => decodeV
  | .m => decodeM
  | .x => decodeX
  | .f => decodeF
  | .c => decodeC

/-- The instruction a row's word of the opcode table stands for: the table gives bits to F-slot words (24) and C-slot words
(32). Of the forms that share a word it answers the one the decoder gives. -/
noncomputable def decodeTableWord (nbits w : Nat) : Option Instr :=
  if nbits = 24 then (decodeF (w % 2 ^ 24)).toOption
  else if nbits = 32 then (decodeC (w % 2 ^ 32)).toOption
  else none

/-- Header fields (R30, Table 2.3). -/
structure Header where
  ports : List (BitVec 7)
  blkn : BitVec 4
  blkb : BitVec 5
  blka : BitVec 5
  blk : Bool
  rgn : Bool
  reserved : BitVec 6
  deriving DecidableEq, Repr

def Header.ofWord (h : Nat) : Header :=
  { ports := [fieldOf h 16 7, fieldOf h 23 7, fieldOf h 30 7, fieldOf h 37 7, fieldOf h 44 7, fieldOf h 51 7],
    blkn := fieldOf h 12 4, blkb := fieldOf h 7 5, blka := fieldOf h 2 5, blk := h / 2 % 2 == 1, rgn := h % 2 == 1,
    reserved := fieldOf h 58 6 }

/-- The header checks of phase 2: reserved bits, a disabled port's register number (R35), the lock fields (R30, R47). -/
def Header.wf (h : Header) : Bool :=
  h.reserved == 0#6
    && h.ports.all (fun p => p.toNat / 64 == 1 || p.toNat == 0)
    && (if h.blk then h.blkn != 0#4 else h.blkn == 0#4 && h.blka == 0#5 && h.blkb == 0#5)

/-- A slot of a bundle: its number for TRAPSLOT, its kind, its first bit and its width (R29, Table 2.2). -/
structure SlotPlace where
  num : Nat
  kind : SlotKind
  base : Nat
  width : Nat
  deriving DecidableEq, Repr

/-- The eight slots in rising slot number. -/
def slotPlaces : List SlotPlace :=
  [⟨1, .s, 64, 40⟩, ⟨2, .s, 104, 40⟩, ⟨3, .l, 144, 40⟩, ⟨4, .v, 184, 64⟩, ⟨5, .m, 248, 40⟩, ⟨6, .x, 288, 40⟩,
   ⟨7, .f, 328, 24⟩, ⟨8, .c, 352, 32⟩]

/-- The word of a slot in a bundle's 384 bits. -/
def SlotPlace.word (p : SlotPlace) (bundle : Nat) : Nat := bundle / 2 ^ p.base % 2 ^ p.width

def SSlot.word (f : SSlot) (op : Nat) : Nat :=
  op + 2 ^ 7 * f.d.toNat + 2 ^ 13 * f.sa.toNat + 2 ^ 16 * f.sb.toNat + 2 ^ 19 * f.g.toNat + 2 ^ 23 * f.gn.toNat
    + 2 ^ 24 * f.imm.toNat
def LSlot.word (f : LSlot) (op : Nat) : Nat :=
  op + 2 ^ 6 * f.t.toNat + 2 ^ 12 * f.sa.toNat + 2 ^ 15 * f.sb.toNat + 2 ^ 18 * f.sc.toNat + 2 ^ 21 * f.g.toNat
    + 2 ^ 25 * f.gn.toNat + 2 ^ 26 * f.off.toNat
def VSlot.word (f : VSlot) (op : Nat) : Nat :=
  op + 2 ^ 8 * f.vd.toNat + 2 ^ 14 * f.va.toNat + 2 ^ 20 * f.vb.toNat + 2 ^ 26 * f.vc.toNat + 2 ^ 32 * f.mkr.toNat
    + 2 ^ 36 * f.me.toNat + 2 ^ 37 * f.mz.toNat + 2 ^ 38 * f.rm.toNat + 2 ^ 41 * f.ss.toNat + 2 ^ 44 * f.sd.toNat
    + 2 ^ 50 * f.vs.toNat + 2 ^ 51 * f.imm.toNat
def MSlot.word (f : MSlot) (op : Nat) : Nat :=
  op + 2 ^ 5 * f.sy.toNat + 2 ^ 9 * f.sa.toNat + 2 ^ 12 * f.sb.toNat + 2 ^ 15 * f.os.toNat + 2 ^ 21 * f.ot.toNat
    + 2 ^ 27 * f.ar.toNat
def XSlot.word (f : XSlot) (op : Nat) : Nat :=
  op + 2 ^ 6 * f.sy.toNat + 2 ^ 10 * f.sa.toNat + 2 ^ 13 * f.sb.toNat + 2 ^ 16 * f.sc.toNat + 2 ^ 19 * f.sd.toNat
    + 2 ^ 22 * f.ch.toNat + 2 ^ 25 * f.sco.toNat + 2 ^ 28 * f.ord.toNat + 2 ^ 30 * f.td.toNat
def FSlot.word (f : FSlot) (op : Nat) : Nat :=
  op + 2 ^ 4 * f.sy.toNat + 2 ^ 8 * f.pt.toNat + 2 ^ 12 * f.sa.toNat + 2 ^ 15 * f.sb.toNat + 2 ^ 18 * f.n.toNat
def CSlot.word (f : CSlot) (op : Nat) : Nat :=
  op + 2 ^ 6 * f.sa.toNat + 2 ^ 9 * f.sb.toNat + 2 ^ 12 * f.p.toNat + 2 ^ 16 * f.imm.toNat
def CJump.word (f : CJump) (op : Nat) : Nat := op + 2 ^ 12 * f.disp.toNat


/-- The slot kind and word of an instruction that stands in a slot, written from Tables 2.5 to 2.18. Header operations and
events have no slot word. -/
def encode : Instr → Option (SlotKind × Nat)
  | .add f => some (.s, f.word 0x01)
  | .sub f => some (.s, f.word 0x02)
  | .and f => some (.s, f.word 0x03)
  | .or f => some (.s, f.word 0x04)
  | .xor f => some (.s, f.word 0x05)
  | .andn f => some (.s, f.word 0x06)
  | .orn f => some (.s, f.word 0x07)
  | .xnor f => some (.s, f.word 0x08)
  | .shl f => some (.s, f.word 0x09)
  | .shr f => some (.s, f.word 0x0A)
  | .sar f => some (.s, f.word 0x0B)
  | .rol f => some (.s, f.word 0x0C)
  | .ror f => some (.s, f.word 0x0D)
  | .shadd f => some (.s, f.word 0x0E)
  | .abs f => some (.s, f.word 0x0F)
  | .mul f => some (.s, f.word 0x10)
  | .mulhI f => some (.s, f.word 0x11)
  | .mulhN f => some (.s, f.word 0x12)
  | .mulhIn f => some (.s, f.word 0x13)
  | .mulwI f => some (.s, f.word 0x14)
  | .mulwN f => some (.s, f.word 0x15)
  | .divI f => some (.s, f.word 0x16)
  | .divN f => some (.s, f.word 0x17)
  | .remI f => some (.s, f.word 0x18)
  | .remN f => some (.s, f.word 0x19)
  | .minI f => some (.s, f.word 0x1A)
  | .minN f => some (.s, f.word 0x1B)
  | .maxI f => some (.s, f.word 0x1C)
  | .maxN f => some (.s, f.word 0x1D)
  | .addsI f => some (.s, f.word 0x1E)
  | .addsN f => some (.s, f.word 0x1F)
  | .subsI f => some (.s, f.word 0x20)
  | .subsN f => some (.s, f.word 0x21)
  | .clz f => some (.s, f.word 0x22)
  | .ctz f => some (.s, f.word 0x23)
  | .popc f => some (.s, f.word 0x24)
  | .brev f => some (.s, f.word 0x25)
  | .extrI f => some (.s, f.word 0x26)
  | .extrN f => some (.s, f.word 0x27)
  | .insr f => some (.s, f.word 0x28)
  | .sextI8 f => some (.s, f.word 0x29)
  | .sextI16 f => some (.s, f.word 0x2A)
  | .sextI32 f => some (.s, f.word 0x2B)
  | .cmpEq f => some (.s, f.word 0x30)
  | .cmpNe f => some (.s, f.word 0x31)
  | .cmpLtI f => some (.s, f.word 0x32)
  | .cmpLeI f => some (.s, f.word 0x33)
  | .cmpGtI f => some (.s, f.word 0x34)
  | .cmpGeI f => some (.s, f.word 0x35)
  | .cmpLtN f => some (.s, f.word 0x36)
  | .cmpLeN f => some (.s, f.word 0x37)
  | .cmpGtN f => some (.s, f.word 0x38)
  | .cmpGeN f => some (.s, f.word 0x39)
  | .tstAny f => some (.s, f.word 0x3A)
  | .tstNone f => some (.s, f.word 0x3B)
  | .sel f => some (.s, f.word 0x3C)
  | .movz f => some (.s, f.word 0x40)
  | .movk f => some (.s, f.word 0x41)
  | .movn f => some (.s, f.word 0x42)
  | .pand f => some (.s, f.word 0x43)
  | .por f => some (.s, f.word 0x44)
  | .pxor f => some (.s, f.word 0x45)
  | .pandn f => some (.s, f.word 0x46)
  | .pmovs f => some (.s, f.word 0x47)
  | .smovp f => some (.s, f.word 0x48)
  | .csrr f => some (.s, f.word 0x50)
  | .csrw f => some (.s, f.word 0x51)
  | .csrs f => some (.s, f.word 0x52)
  | .csrc f => some (.s, f.word 0x53)
  | .ktime f => some (.s, f.word 0x54)
  | .ldI8 f => some (.l, f.word 0x01)
  | .ldN8 f => some (.l, f.word 0x02)
  | .ldI16 f => some (.l, f.word 0x03)
  | .ldN16 f => some (.l, f.word 0x04)
  | .ldI32 f => some (.l, f.word 0x05)
  | .ldN32 f => some (.l, f.word 0x06)
  | .ld64 f => some (.l, f.word 0x07)
  | .ldN32Acq f => some (.l, f.word 0x08)
  | .ld64Acq f => some (.l, f.word 0x09)
  | .st8 f => some (.l, f.word 0x0A)
  | .st16 f => some (.l, f.word 0x0B)
  | .st32 f => some (.l, f.word 0x0C)
  | .st64 f => some (.l, f.word 0x0D)
  | .st32Rel f => some (.l, f.word 0x0E)
  | .st64Rel f => some (.l, f.word 0x0F)
  | .lda f => some (.l, f.word 0x10)
  | .ldaAcq f => some (.l, f.word 0x11)
  | .sta f => some (.l, f.word 0x12)
  | .staRel f => some (.l, f.word 0x13)
  | .aadd f => some (.l, f.word 0x14)
  | .aaddAcq f => some (.l, f.word 0x15)
  | .aaddRel f => some (.l, f.word 0x16)
  | .aaddAr f => some (.l, f.word 0x17)
  | .aswp f => some (.l, f.word 0x18)
  | .aswpAcq f => some (.l, f.word 0x19)
  | .aswpRel f => some (.l, f.word 0x1A)
  | .aswpAr f => some (.l, f.word 0x1B)
  | .vld f => some (.l, f.word 0x1C)
  | .vlds f => some (.l, f.word 0x1D)
  | .vst f => some (.l, f.word 0x1E)
  | .vsts f => some (.l, f.word 0x1F)
  | .vaddF32 f => some (.v, f.word 0x01)
  | .vaddF16 f => some (.v, f.word 0x02)
  | .vaddBf16 f => some (.v, f.word 0x03)
  | .vaddI32 f => some (.v, f.word 0x04)
  | .vaddI16 f => some (.v, f.word 0x05)
  | .vaddI8 f => some (.v, f.word 0x06)
  | .vsubF32 f => some (.v, f.word 0x07)
  | .vsubF16 f => some (.v, f.word 0x08)
  | .vsubBf16 f => some (.v, f.word 0x09)
  | .vsubI32 f => some (.v, f.word 0x0A)
  | .vsubI16 f => some (.v, f.word 0x0B)
  | .vsubI8 f => some (.v, f.word 0x0C)
  | .vmulF32 f => some (.v, f.word 0x0D)
  | .vmulF16 f => some (.v, f.word 0x0E)
  | .vmulBf16 f => some (.v, f.word 0x0F)
  | .vmulI32 f => some (.v, f.word 0x10)
  | .vmulI16 f => some (.v, f.word 0x11)
  | .vfmaF32 f => some (.v, f.word 0x12)
  | .vfmaF16 f => some (.v, f.word 0x13)
  | .vfmaBf16 f => some (.v, f.word 0x14)
  | .vminF32 f => some (.v, f.word 0x15)
  | .vminF16 f => some (.v, f.word 0x16)
  | .vminBf16 f => some (.v, f.word 0x17)
  | .vminI32 f => some (.v, f.word 0x18)
  | .vmaxF32 f => some (.v, f.word 0x19)
  | .vmaxF16 f => some (.v, f.word 0x1A)
  | .vmaxBf16 f => some (.v, f.word 0x1B)
  | .vmaxI32 f => some (.v, f.word 0x1C)
  | .vaddsI32 f => some (.v, f.word 0x1D)
  | .vaddsI16 f => some (.v, f.word 0x1E)
  | .vaddsI8 f => some (.v, f.word 0x1F)
  | .vaddsN8 f => some (.v, f.word 0x20)
  | .vsubsI32 f => some (.v, f.word 0x21)
  | .vsubsI16 f => some (.v, f.word 0x22)
  | .vsubsI8 f => some (.v, f.word 0x23)
  | .vsubsN8 f => some (.v, f.word 0x24)
  | .vmulhI32 f => some (.v, f.word 0x25)
  | .vmulhN32 f => some (.v, f.word 0x26)
  | .vabsF32 f => some (.v, f.word 0x27)
  | .vabsI32 f => some (.v, f.word 0x28)
  | .vnegF32 f => some (.v, f.word 0x29)
  | .vnegI32 f => some (.v, f.word 0x2A)
  | .vrcp f => some (.v, f.word 0x2B)
  | .vrsq f => some (.v, f.word 0x2C)
  | .vexp2 f => some (.v, f.word 0x2D)
  | .vlog2 f => some (.v, f.word 0x2E)
  | .vsqrt f => some (.v, f.word 0x2F)
  | .vand f => some (.v, f.word 0x30)
  | .vor f => some (.v, f.word 0x31)
  | .vxor f => some (.v, f.word 0x32)
  | .vandn f => some (.v, f.word 0x33)
  | .vshl f => some (.v, f.word 0x34)
  | .vshr f => some (.v, f.word 0x35)
  | .vsar f => some (.v, f.word 0x36)
  | .vclz f => some (.v, f.word 0x37)
  | .vpopc f => some (.v, f.word 0x38)
  | .vcmpF32Eq f => some (.v, f.word 0x40)
  | .vcmpF32Ne f => some (.v, f.word 0x41)
  | .vcmpF32Lt f => some (.v, f.word 0x42)
  | .vcmpF32Le f => some (.v, f.word 0x43)
  | .vcmpF32Un f => some (.v, f.word 0x44)
  | .vcmpI32Eq f => some (.v, f.word 0x45)
  | .vcmpI32Ne f => some (.v, f.word 0x46)
  | .vcmpI32Lt f => some (.v, f.word 0x47)
  | .vcmpI32Le f => some (.v, f.word 0x48)
  | .vcmpN32Lt f => some (.v, f.word 0x49)
  | .vcmpN32Le f => some (.v, f.word 0x4A)
  | .vsel f => some (.v, f.word 0x4B)
  | .mand f => some (.v, f.word 0x4C)
  | .mor f => some (.v, f.word 0x4D)
  | .mxor f => some (.v, f.word 0x4E)
  | .mandn f => some (.v, f.word 0x4F)
  | .mtos f => some (.v, f.word 0x50)
  | .stom f => some (.v, f.word 0x51)
  | .vraddF32 f => some (.v, f.word 0x60)
  | .vraddI32 f => some (.v, f.word 0x61)
  | .vrmaxF32 f => some (.v, f.word 0x62)
  | .vrmaxI32 f => some (.v, f.word 0x63)
  | .vrminF32 f => some (.v, f.word 0x64)
  | .vrminI32 f => some (.v, f.word 0x65)
  | .vperm f => some (.v, f.word 0x66)
  | .vrot f => some (.v, f.word 0x67)
  | .vbcast f => some (.v, f.word 0x68)
  | .vext f => some (.v, f.word 0x69)
  | .vins f => some (.v, f.word 0x6A)
  | .vmov f => some (.v, f.word 0x6B)
  | .vmovi f => some (.v, f.word 0x6C)
  | .vcvtF16F32 f => some (.v, f.word 0x80)
  | .vcvtBf16F32 f => some (.v, f.word 0x81)
  | .vcvtF32F16 f => some (.v, f.word 0x82)
  | .vcvtF32Bf16 f => some (.v, f.word 0x83)
  | .vcvtI32F32 f => some (.v, f.word 0x84)
  | .vcvtN32F32 f => some (.v, f.word 0x85)
  | .vcvtF32I32 f => some (.v, f.word 0x86)
  | .vcvtF32N32 f => some (.v, f.word 0x87)
  | .vtologLb8 f => some (.v, f.word 0x88)
  | .vtologLb6 f => some (.v, f.word 0x89)
  | .vtologLb4 f => some (.v, f.word 0x8A)
  | .vtologLm16 f => some (.v, f.word 0x8B)
  | .vfromlogLb8 f => some (.v, f.word 0x8C)
  | .vfromlogLb6 f => some (.v, f.word 0x8D)
  | .vfromlogLb4 f => some (.v, f.word 0x8E)
  | .vfromlogLm16 f => some (.v, f.word 0x8F)
  | .vbpackLb8 f => some (.v, f.word 0x90)
  | .vbpackLb6 f => some (.v, f.word 0x91)
  | .vbpackLb4 f => some (.v, f.word 0x92)
  | .vbunpLb8 f => some (.v, f.word 0x93)
  | .vbunpLb6 f => some (.v, f.word 0x94)
  | .vbunpLb4 f => some (.v, f.word 0x95)
  | .vtordwF32 f => some (.v, f.word 0x96)
  | .vtordwA64 f => some (.v, f.word 0x97)
  | .vfromrdwF32 f => some (.v, f.word 0x98)
  | .vfromrdwA64 f => some (.v, f.word 0x99)
  | .vaddrdw f => some (.v, f.word 0x9A)
  | .vcvtaF32 f => some (.v, f.word 0x9B)
  | .vcvtaA64 f => some (.v, f.word 0x9C)
  | .nop => some (.s, 0)
  | .nopF => some (.f, 0)
  | .nopC => some (.c, 0)
  | .regionOpen => none
  | .bankLock => none
  | .wload f => some (.m, f.word 0x01)
  | .wloadw f => some (.m, f.word 0x02)
  | .streamAdd f => some (.m, f.word 0x03)
  | .streamOvw f => some (.m, f.word 0x04)
  | .streamTAdd f => some (.m, f.word 0x05)
  | .streamTOvw f => some (.m, f.word 0x06)
  | .drain f => some (.m, f.word 0x07)
  | .drainRdw f => some (.m, f.word 0x08)
  | .accclr f => some (.m, f.word 0x09)
  | .anchor f => some (.m, f.word 0x0A)
  | .oclaim f => some (.m, f.word 0x0B)
  | .orelease f => some (.m, f.word 0x0C)
  | .fmtsel f => some (.m, f.word 0x0D)
  | .accpin f => some (.m, f.word 0x0E)
  | .accpinClr f => some (.m, f.word 0x0F)
  | .copy f => some (.x, f.word 0x01)
  | .gather f => some (.x, f.word 0x02)
  | .scatter f => some (.x, f.word 0x03)
  | .get f => some (.x, f.word 0x04)
  | .put f => some (.x, f.word 0x05)
  | .layreg f => some (.x, f.word 0x06)
  | .laydrop f => some (.x, f.word 0x07)
  | .wmset f => some (.x, f.word 0x08)
  | .smalloc f => some (.x, f.word 0x10)
  | .smfree f => some (.x, f.word 0x11)
  | .smquery f => some (.x, f.word 0x12)
  | .smld f => some (.x, f.word 0x13)
  | .smldAcq f => some (.x, f.word 0x14)
  | .smst f => some (.x, f.word 0x15)
  | .smstRel f => some (.x, f.word 0x16)
  | .smatomAdd f => some (.x, f.word 0x17)
  | .smatomSwap f => some (.x, f.word 0x18)
  | .smatomCas f => some (.x, f.word 0x19)
  | .smatomMinI f => some (.x, f.word 0x1A)
  | .smatomMaxI f => some (.x, f.word 0x1B)
  | .smatomMinN f => some (.x, f.word 0x1C)
  | .smatomMaxN f => some (.x, f.word 0x1D)
  | .burnishUpdate f => some (.x, f.word 0x20)
  | .burnishRecipeLoad f => some (.x, f.word 0x20)
  | .send f => some (.f, f.word 0x01)
  | .recv f => some (.f, f.word 0x02)
  | .recvaddReg f => some (.f, f.word 0x03)
  | .recvaddAcc f => some (.f, f.word 0x04)
  | .relay f => some (.f, f.word 0x05)
  | .br f => some (.c, f.word 0x01)
  | .brpT f => some (.c, f.word 0x02)
  | .brpF f => some (.c, f.word 0x03)
  | .bri f => some (.c, f.word 0x04)
  | .call f => some (.c, f.word 0x05)
  | .calli f => some (.c, f.word 0x06)
  | .ret f => some (.c, f.word 0x07)
  | .loop f => some (.c, f.word 0x08)
  | .lend f => some (.c, f.word 0x09)
  | .semw f => some (.c, f.word 0x10)
  | .sems f => some (.c, f.word 0x11)
  | .phregSig f => some (.c, f.word 0x12)
  | .phregWait f => some (.c, f.word 0x13)
  | .phregSw f => some (.c, f.word 0x14)
  | .pharr f => some (.c, f.word 0x15)
  | .phwait f => some (.c, f.word 0x16)
  | .phdrop f => some (.c, f.word 0x17)
  | .fence f => some (.c, f.word 0x18)
  | .yield f => some (.c, f.word 0x19)
  | .halt f => some (.c, f.word 0x1A)
  | .align f => some (.c, f.word 0x20)
  | .ftrbeg f => some (.c, f.word 0x21)
  | .ftrend f => some (.c, f.word 0x22)
  | .trap f => some (.c, f.word 0x30)
  | .eret f => some (.c, f.word 0x31)
  | .eres f => some (.c, f.word 0x32)
  | .park f => some (.c, f.word 0x33)
  | .unparkReturn f => some (.c, f.word 0x34)
  | .unparkResume f => some (.c, f.word 0x34)
  | .unparkRedirect f => some (.c, f.word 0x34)
  | .unparkEnd f => some (.c, f.word 0x34)
  | .resultLanding => none
  | .lateResultLanding => none
  | .lazyRegisterFill => none
  | .matrixCommandBegin => none
  | .matrixCommandCompletion => none
  | .engineStep => none
  | .engineFaultTaken => none
  | .copyCommandBegin => none
  | .copyCommandCompletion => none
  | .burnishBegin => none
  | .burnishCompletion => none
  | .fabricCommandCompletion => none
  | .beatArrival => none
  | .translationWalkComplete => none
  | .farAcquireReply => none
  | .trapEntry => none
  | .faultQueueRetest => none
  | .quantumExpiry => none
  | .regionLimitExpiry => none
  | .ftrTimerExpiry => none
  | .progressWatchdog => none
  | .preemptionRequest => none
  | .lazyPreemption => none
  | .urgentPreemption => none
  | .contextSave => none
  | .contextRestore => none
  | .launchRecordPost => none
  | .launchHeadCheck => none
  | .launchFire => none
  | .instanceStart => none
  | .memberPlace => none
  | .contextEnd => none
  | .compaction => none
  | .masterElection => none
  | .scrub => none
  | .beaconSend => none
  | .beaconReceive => none
  | .parentBeaconTimeout => none
  | .stretchAnnounce => none
  | .powerWindowEnd => none
  | .clockStepChange => none
  | .dieFence => none
  | .keyDieRedesignation => none
  | .linkDown => none
  | .linkTraining => none
  | .flitReplay => none
  | .remoteRequestTimeout => none
  | .remoteRequestArrival => none
  | .switchLossDeclared => none
  | .mirrorFailoverComplete => none
  | .sheetTableUpdate => none
  | .patrolRewrite => none
  | .packageReset => none
  | .nonRocePacket => none
  | .rdmaRead => none
  | .rdmaWrite => none
  | .tenset => none
  | .rngset => none
  | .inval => none
  | .invalReply => none
  | .pinq => none
  | .keyload => none
  | .keydrop => none
  | .keydropReply => none
  | .quota => none
  | .qpset => none
  | .lsem => none
  | .status => none
  | .attest => none
  | .pwrq => none
  | .pwrset => none
  | .errq => none
  | .fwload => none
  | .reset => none
  | .regset => none
  | .regsetReply => none
  | .illegalCodeWord => none
  | .unassignedOpcode => none
  | .contextLost => none
  | .resetnAssert => none
  | .unknownManagementOpc => none

end Sys2Proof
end

