-- ==== Sys2Proof/Config.lean ====
section
/-! DEFINITION. What an implementation fixes and what the manual leaves open: opaque constants, so that no proof can see a
value. Each is named in a log entry. -/

namespace Sys2Proof.Config

/-- Whether a fused multiply-add of infinity and zero with a quiet NaN addend signals NV: IEEE 754 leaves it to the
implementation (R145; log 13). -/
opaque fmaInvalidWithQuietNan : Bool

/-- A free value for each count drawn (log 3). -/
opaque freeNat : Nat → Nat

/-- A free value for each count drawn and each party that asks under that count (log 3). -/
opaque freeFor : Nat → Nat → Nat

/-- Bytes another package's memory holds (08 R188; log 5): free for each count drawn and byte. -/
opaque remoteByte : Nat → Nat → Byte

/-- What a byte of HBM that nothing has written reads as under a key pair (17 R391; log 2). -/
opaque hbmInitial : BitVec 512 → Nat → Byte

/-- AES-256-XTS of one 64-byte unit under one pair, read under another (12 R333, R335; log 10): the pair it was written under,
the pair it is read under, the tweak, the bytes written, and the byte asked for. -/
opaque decryptedUnder : BitVec 512 → BitVec 512 → Nat → List Byte → Nat → Byte

/-- AES-256 key unwrap (RFC 3394) under the operator's fused wrapping key of the wrapped pair a KEYLOAD delivers (12 R332; log 10). -/
opaque unwrappedPair : Nat → Option (BitVec 512)

/-- The XMSS check of a firmware image's signature (12 R339; log 10), and the version the image bears. -/
opaque imageSigned : List (Nat × Byte) → Bool
opaque imageVersion : List (Nat × Byte) → BitVec 32

/-- The 32 bytes of SHAKE256 of a firmware image, and of the identity public key (12 R341; log 10). -/
opaque imageHash : List (Nat × Byte) → Nat → Byte
opaque identityHash : Nat → Byte

/-- The XMSS signature of a report under an index of the identity key (12 R340, R341; log 10). -/
opaque signature : Nat → List Byte → List Byte

end Sys2Proof.Config
end

