-- ==== Sys2Proof/Machine/Bits.lean ====
section
/-! DEFINITION. The shared helpers of 00 R6 over exact numbers (bit fields, extension, wrapping, saturation, Mix64), finite
maps kept in one canonical order, and small list helpers. -/

namespace Sys2Proof.Machine

/-- Bits(x, hi, lo) of R6. -/
def bits (x hi lo : Nat) : Nat := x / 2 ^ lo % 2 ^ (hi + 1 - lo)

/-- Bit `i` of a pattern. -/
def bitAt (x i : Nat) : Bool := x / 2 ^ i % 2 == 1

/-- A flag as a bit. -/
def bit01 (b : Bool) : Nat := if b then 1 else 0

/-- SignExtend(x, n) of R6. -/
def signExt (x n : Nat) : Int :=
  let y := x % 2 ^ n
  if y < 2 ^ (n - 1) then (y : Int) else (y : Int) - 2 ^ n

/-- Wrap(x, n) of R6. -/
def wrap (x : Int) (n : Nat) : Nat := (x % 2 ^ n).toNat

/-- Sat64(x) of R6: the clamp is symmetric, and a value equal to −2^63 is left alone. -/
def sat64 (x : Int) : Int × Bool :=
  if x < -(2 ^ 63) then (-(2 ^ 63) + 1, true)
  else if 2 ^ 63 - 1 < x then (2 ^ 63 - 1, true)
  else (x, false)

/-- SatRange(x, lo, hi) of R6. -/
def satRange (x lo hi : Int) : Int × Bool :=
  if x < lo then (lo, true) else if hi < x then (hi, true) else (x, false)

/-- Mix64(z) of R6. -/
def mix64 (z : Word) : Word :=
  let z := z ^^^ (z >>> 30)
  let z := z * 0xBF58476D1CE4E5B9#64
  let z := z ^^^ (z >>> 27)
  let z := z * 0x94D049BB133111EB#64
  z ^^^ (z >>> 31)

/-- StippleBits(tag, lane) of R6 under a given SEED and STEP. -/
def stippleBits (seed step : Word) (tag lane : Nat) : Word :=
  mix64 (seed ^^^ (step * 0x9E3779B97F4A7C15#64) ^^^ (BitVec.ofNat 64 tag * 0xBF58476D1CE4E5B9#64) ^^^ BitVec.ofNat 64 lane)

/-- The 16-bit draw of a stippled rounding (R77, R144). -/
def stippleDraw (seed step : Word) (tag lane : Nat) : Nat := (stippleBits seed step tag lane).toNat % 65536

/-- Little-endian bytes of a value, `n` of them (R1). -/
def toBytes : Nat → Nat → List Byte
  | 0, _ => []
  | n + 1, x => BitVec.ofNat 8 x :: toBytes n (x / 256)

/-- The value of little-endian bytes (R1). -/
def ofBytes : List Byte → Nat
  | [] => 0
  | b :: bs => b.toNat + 256 * ofBytes bs

/-- ceil(a ÷ b) for naturals. -/
def ceilDiv (a b : Nat) : Nat := (a + b - 1) / b

/-- `x` rounded up to a multiple of `n`. -/
def alignUp (x n : Nat) : Nat := ceilDiv x n * n

/-- Two half-open ranges of the given starts and lengths share a byte. -/
def overlaps (a la b lb : Nat) : Bool := 0 < la && 0 < lb && a < b + lb && b < a + la

/-- Replace element `i` of a list. -/
def setAt {α : Type} : List α → Nat → α → List α
  | [], _, _ => []
  | _ :: xs, 0, a => a :: xs
  | x :: xs, i + 1, a => x :: setAt xs i a

/-- The numbers `lo`, `lo + 1`, … `lo + n − 1`. -/
def rangeFrom : Nat → Nat → List Nat
  | _, 0 => []
  | lo, n + 1 => lo :: rangeFrom (lo + 1) n

/-- A finite map, kept in rising order of its keys. -/
abbrev FMap (α : Type) := List (Nat × α)

/-- The value at a key. -/
def FMap.get? {α : Type} : FMap α → Nat → Option α
  | [], _ => none
  | (k, v) :: m, i => if k = i then some v else FMap.get? m i

/-- The value at a key, or a default where the map lists none. -/
def FMap.getD {α : Type} (m : FMap α) (i : Nat) (d : α) : α := (FMap.get? m i).getD d

/-- Add or replace one entry, keeping the order. -/
def FMap.insert {α : Type} : FMap α → Nat → α → FMap α
  | [], i, a => [(i, a)]
  | (k, v) :: m, i, a =>
    if i < k then (i, a) :: (k, v) :: m
    else if i = k then (i, a) :: m
    else (k, v) :: FMap.insert m i a

/-- Remove a key. -/
def FMap.erase {α : Type} : FMap α → Nat → FMap α
  | [], _ => []
  | (k, v) :: m, i => if k = i then FMap.erase m i else (k, v) :: FMap.erase m i

/-- Write a value, listing it only where it differs from what an unlisted key reads as. -/
def FMap.setD {α : Type} [DecidableEq α] (m : FMap α) (i : Nat) (a d : α) : FMap α :=
  if a = d then FMap.erase m i else FMap.insert m i a

/-- The keys of a map. -/
def FMap.keysOf {α : Type} (m : FMap α) : List Nat := m.map (·.1)

/-- Keys strictly rise. -/
def FMap.sorted {α : Type} : FMap α → Bool
  | [] => true
  | [_] => true
  | a :: b :: m => a.1 < b.1 && FMap.sorted (b :: m)

/-- Integer square root: the greatest r with r·r ≤ n, found bit by bit from bit `k` down. -/
def isqrtFrom : Nat → Nat → Nat → Nat
  | 0, r, n => if (r + 1) * (r + 1) ≤ n then r + 1 else r
  | k + 1, r, n =>
    let r' := r + 2 ^ (k + 1)
    isqrtFrom k (if r' * r' ≤ n then r' else r) n

/-- floor(√n). -/
def isqrt (n : Nat) : Nat := isqrtFrom (Nat.log2 n / 2 + 1) 0 n

end Sys2Proof.Machine
end

