-- ==== Sys2Proof/Machine/Flags.lean ====
section
/-! DEFINITION. The sticky flags of VFLAGS (03 R82, Table 3.5) and how operations combine them (R83). -/

namespace Sys2Proof.Machine

/-- A set of flags in the layout of VFLAGS[5:0]. -/
abbrev Flags := BitVec 6

/-- NV: an invalid operation. -/
def flNV : Flags := 0x01#6
/-- DZ: division of a finite nonzero value by zero. -/
def flDZ : Flags := 0x02#6
/-- OF: an IEEE result overflowed. -/
def flOF : Flags := 0x04#6
/-- UF: tiny and inexact, or a log element flushed. -/
def flUF : Flags := 0x08#6
/-- NX: inexact. -/
def flNX : Flags := 0x10#6
/-- SAT: a clamp. -/
def flSAT : Flags := 0x20#6

/-- A flag raised when the condition holds. -/
def flagIf (c : Bool) (f : Flags) : Flags := if c then f else 0#6

/-- The flags of several computations together (R83). -/
def orFlags (fs : List Flags) : Flags := fs.foldl (· ||| ·) 0#6

/-- Flags of a result that is poisoned are not raised (R83, R117, R143). -/
def flagsUnless (poison : Bool) (f : Flags) : Flags := if poison then 0#6 else f

end Sys2Proof.Machine
end

