-- ==== Sys2Proof/Machine/Formats.lean ====
section
/-! DEFINITION. Number formats, rounding and stipple (03): linear formats, log grids, blocks, LM16, A64 and RDW. Values are
exact: a linear number is a signed dyadic, a log value a sign and a grid index. -/

namespace Sys2Proof.Machine

/-- The five rounding modes (R76). -/
inductive RMode where
  | rne | rtz | rdn | rup | stp
  deriving DecidableEq, Repr

/-- RM codes of Table 2.9; codes above 4 never reach an operation. -/
def RMode.ofCode : Nat → RMode
  | 0 => .rne
  | 1 => .rtz
  | 2 => .rdn
  | 3 => .rup
  | _ => .stp

/-- A linear number: a NaN (signalling or not), an infinity, or (−1)^neg · m · 2^e. -/
inductive Num where
  | nan (sig : Bool)
  | inf (neg : Bool)
  | fin (neg : Bool) (m : Nat) (e : Int)
  deriving DecidableEq, Repr

/-- A log value: zero, NaN, or (−1)^neg · 2^(g/n) on a grid of n steps (R61, R63). -/
inductive LogVal where
  | zero
  | nan
  | num (neg : Bool) (g : Int)
  deriving DecidableEq, Repr

/-- m · 2^e as a natural at exponent `q` ≤ e. -/
def scaleTo (m : Nat) (e q : Int) : Nat := m * 2 ^ (e - q).toNat

/-- floor(log2 (m · 2^e)) for m > 0. -/
def topOf (m : Nat) (e : Int) : Int := (Nat.log2 m : Int) + e

/-! ### Magnitudes as the rounding reads them -/

/-- A positive real given by its floors: `floorAt q` is floor(x ÷ 2^q) with whether it is exact, and `top` is
floor(log2 x). -/
structure Mag where
  top : Int
  floorAt : Int → Nat × Bool

/-- The magnitude m · 2^e. -/
def Mag.dyadic (m : Nat) (e : Int) : Mag :=
  { top := topOf m e
    floorAt := fun q =>
      if q ≤ e then (m * 2 ^ (e - q).toNat, true)
      else (m / 2 ^ (q - e).toNat, m % 2 ^ (q - e).toNat == 0) }

/-- Whether a value of k units, 16 further bits f and a sticky rest rounds away from zero (R76, R79: the linear domain). -/
def roundsUp (mode : RMode) (neg : Bool) (k f : Nat) (sticky : Bool) (draw : Nat) : Bool :=
  match mode with
  | .rne => f > 32768 || (f == 32768 && (sticky || k % 2 == 1))
  | .rtz => false
  | .rdn => neg && (f != 0 || sticky)
  | .rup => !neg && (f != 0 || sticky)
  | .stp => draw < f || (draw == f && sticky)

/-- A magnitude rounded to a multiple of 2^q, in units of 2^q, and whether it was inexact. -/
def Mag.roundAt (x : Mag) (mode : RMode) (neg : Bool) (draw : Nat) (q : Int) : Nat × Bool :=
  let (n, exact) := x.floorAt (q - 16)
  let k := n / 65536
  let f := n % 65536
  (if roundsUp mode neg k f (!exact) draw then k + 1 else k, f != 0 || !exact)

/-! ### Linear formats (R69) -/

/-- A binary format: significand bits with the hidden one, exponent bits. -/
structure FpFmt where
  sig : Nat
  ebits : Nat
  deriving DecidableEq, Repr

def fp32 : FpFmt := ⟨24, 8⟩
def fp16 : FpFmt := ⟨11, 5⟩
def bf16 : FpFmt := ⟨8, 8⟩

def FpFmt.emax (F : FpFmt) : Int := 2 ^ (F.ebits - 1) - 1
def FpFmt.emin (F : FpFmt) : Int := 1 - F.emax
/-- The exponent of the least subnormal unit. -/
def FpFmt.qmin (F : FpFmt) : Int := F.emin - (F.sig - 1)
def FpFmt.infPat (F : FpFmt) : Nat := (2 ^ F.ebits - 1) * 2 ^ (F.sig - 1)
def FpFmt.maxPat (F : FpFmt) : Nat := F.infPat - 1
/-- The canonical quiet NaN. -/
def FpFmt.qnan (F : FpFmt) : Nat := F.infPat + 2 ^ (F.sig - 2)
def FpFmt.signBit (F : FpFmt) : Nat := 2 ^ (F.sig - 1 + F.ebits)
/-- A pattern with its sign. -/
def FpFmt.signed (F : FpFmt) (neg : Bool) (pat : Nat) : Nat := if neg then F.signBit + pat else pat

/-- The number a pattern stands for. -/
def FpFmt.decode (F : FpFmt) (pat : Nat) : Num :=
  let neg := bitAt pat (F.sig - 1 + F.ebits)
  let ex := bits pat (F.sig + F.ebits - 2) (F.sig - 1)
  let fr := pat % 2 ^ (F.sig - 1)
  if ex = 2 ^ F.ebits - 1 then
    if fr = 0 then .inf neg else .nan (fr < 2 ^ (F.sig - 2))
  else if ex = 0 then .fin neg fr F.qmin
  else .fin neg (2 ^ (F.sig - 1) + fr) (F.qmin + (ex - 1))

/-- The exact magnitude exceeds the largest finite one (R80). -/
def FpFmt.exceeds (F : FpFmt) (x : Mag) : Bool :=
  F.emax < x.top ||
    (x.top == F.emax &&
      (let (n, exact) := x.floorAt (F.emax - (F.sig - 1))
       n == 2 ^ F.sig - 1 && !exact))

/-- A nonzero finite magnitude rounded into a linear format (R69, R76, R80), with its flags. Tininess is judged after rounding: the
mode's own rounding, under stipple with the same draw, at an unbounded exponent (log 15). -/
def FpFmt.round (F : FpFmt) (mode : RMode) (draw : Nat) (neg : Bool) (x : Mag) : Nat × Flags :=
  if mode = .stp && F.exceeds x then (F.signed neg F.maxPat, flSAT ||| flNX)
  else
    let q := max x.top F.emin - (F.sig - 1)
    let (k, inexact) := x.roundAt mode neg draw q
    let pat := (q - F.qmin).toNat * 2 ^ (F.sig - 1) + k
    if F.infPat ≤ pat then
      let toInf := match mode with
        | .rne => true
        | .rup => !neg
        | .rdn => neg
        | _ => false
      (F.signed neg (if toInf then F.infPat else F.maxPat), flOF ||| flNX)
    else
      let reaches := x.top == F.emin - 1 &&
        (x.roundAt mode neg draw (F.emin - 1 - (F.sig - 1))).1 == 2 ^ F.sig
      let tiny := x.top < F.emin && !reaches
      (F.signed neg pat, flagIf inexact flNX ||| flagIf (tiny && inexact) flUF)

/-- A number rounded into a linear format. A signalling NaN sets NV and every NaN is the canonical one (R69). -/
def FpFmt.ofNum (F : FpFmt) (mode : RMode) (draw : Nat) : Num → Nat × Flags
  | .nan sig => (F.qnan, flagIf sig flNV)
  | .inf neg => (F.signed neg F.infPat, 0#6)
  | .fin neg m e => if m = 0 then (F.signed neg 0, 0#6) else F.round mode draw neg (Mag.dyadic m e)

/-! ### Exact arithmetic on numbers -/

/-- The sign of an exact zero sum of opposite signs (IEEE 754): minus under RDN only. -/
def zeroSumNeg (mode : RMode) : Bool := mode == .rdn

def Num.isSig : Num → Bool
  | .nan s => s
  | _ => false

def Num.isNan : Num → Bool
  | .nan _ => true
  | _ => false

def Num.negate : Num → Num
  | .nan s => .nan s
  | .inf n => .inf (!n)
  | .fin n m e => .fin (!n) m e

/-- A signed integer times 2^e as a number. -/
def Num.ofInt (z : Int) (e : Int) : Num := .fin (z < 0) z.natAbs e

/-- Sum of two numbers, exact; the flags are those of the IEEE 754 invalid cases. -/
def Num.add (mode : RMode) : Num → Num → Num × Flags
  | .nan s, y => (.nan false, flagIf (s || y.isSig) flNV)
  | x, .nan s => (.nan false, flagIf (s || x.isSig) flNV)
  | .inf a, .inf b => if a = b then (.inf a, 0#6) else (.nan false, flNV)
  | .inf a, .fin .. => (.inf a, 0#6)
  | .fin .., .inf b => (.inf b, 0#6)
  | .fin n1 m1 e1, .fin n2 m2 e2 =>
    let q := min e1 e2
    let a : Int := scaleTo m1 e1 q
    let b : Int := scaleTo m2 e2 q
    let z := (if n1 then -a else a) + (if n2 then -b else b)
    if z = 0 then (.fin (if n1 = n2 then n1 else zeroSumNeg mode) 0 0, 0#6) else (Num.ofInt z q, 0#6)

/-- Product of two numbers, exact. -/
def Num.mul : Num → Num → Num × Flags
  | .nan s, y => (.nan false, flagIf (s || y.isSig) flNV)
  | x, .nan s => (.nan false, flagIf (s || x.isSig) flNV)
  | .inf a, .inf b => (.inf (a != b), 0#6)
  | .inf a, .fin b m _ => if m = 0 then (.nan false, flNV) else (.inf (a != b), 0#6)
  | .fin a m _, .inf b => if m = 0 then (.nan false, flNV) else (.inf (a != b), 0#6)
  | .fin a m1 e1, .fin b m2 e2 => (.fin (a != b) (m1 * m2) (e1 + e2), 0#6)

/-- a·b + c, exact. With a quiet NaN addend, whether infinity times zero signals is the implementation's. -/
def Num.fma (mode : RMode) (a b c : Num) : Num × Flags :=
  let (p, f) := Num.mul a b
  match p, c with
  | .nan _, .nan s =>
    if a.isNan || b.isNan then (.nan false, f ||| flagIf s flNV)
    else (.nan false, flagIf (s || Config.fmaInvalidWithQuietNan) flNV)
  | .nan _, _ => (.nan false, f)
  | p, c =>
    let (z, g) := Num.add mode p c
    (z, f ||| g)

/-! ### Element operations of the linear formats -/

/-- A rounded operation: the exact result, then the format's rounding. -/
def FpFmt.finish (F : FpFmt) (mode : RMode) (draw : Nat) (r : Num × Flags) : Nat × Flags :=
  let (p, f) := F.ofNum mode draw r.1
  (p, r.2 ||| f)

def FpFmt.add (F : FpFmt) (mode : RMode) (draw a b : Nat) : Nat × Flags :=
  F.finish mode draw (Num.add mode (F.decode a) (F.decode b))
def FpFmt.sub (F : FpFmt) (mode : RMode) (draw a b : Nat) : Nat × Flags :=
  F.finish mode draw (Num.add mode (F.decode a) (F.decode b).negate)
def FpFmt.mul (F : FpFmt) (mode : RMode) (draw a b : Nat) : Nat × Flags :=
  F.finish mode draw (Num.mul (F.decode a) (F.decode b))
def FpFmt.fma (F : FpFmt) (mode : RMode) (draw a b c : Nat) : Nat × Flags :=
  F.finish mode draw (Num.fma mode (F.decode a) (F.decode b) (F.decode c))

/-- A key that orders non-NaN patterns, with −0 below +0 (R146). -/
def FpFmt.orderKey (F : FpFmt) (pat : Nat) : Int :=
  if F.signBit ≤ pat then -((pat - F.signBit : Nat) : Int) - 1 else pat

/-- VMIN and VMAX (R146). -/
def FpFmt.minMax (F : FpFmt) (isMax : Bool) (a b : Nat) : Nat × Flags :=
  let na := F.decode a
  let nb := F.decode b
  let fl := flagIf (na.isSig || nb.isSig) flNV
  match na.isNan, nb.isNan with
  | true, true => (F.qnan, fl)
  | true, false => (b, fl)
  | false, true => (a, fl)
  | false, false => (if (F.orderKey a < F.orderKey b) != isMax then a else b, fl)

/-- VABS and VNEG (R146). -/
def FpFmt.setSign (F : FpFmt) (flip : Bool) (a : Nat) : Nat × Flags :=
  match F.decode a with
  | .nan s => (F.qnan, flagIf s flNV)
  | _ => (if flip then (if F.signBit ≤ a then a - F.signBit else a + F.signBit) else a % F.signBit, 0#6)

/-- A key under which equal numbers are equal, +0 and −0 among them (R149). -/
def FpFmt.valueKey (F : FpFmt) (pat : Nat) : Int :=
  if F.signBit ≤ pat then -((pat - F.signBit : Nat) : Int) else pat

/-- The comparisons of VCMP.f32 (R149). -/
inductive Rel where
  | eq | ne | lt | le | un
  deriving DecidableEq, Repr

def FpFmt.compare (F : FpFmt) (r : Rel) (a b : Nat) : Bool × Flags :=
  let na := F.decode a
  let nb := F.decode b
  let unordered := na.isNan || nb.isNan
  let sig := na.isSig || nb.isSig
  let ka := F.valueKey a
  let kb := F.valueKey b
  match r with
  | .eq => (!unordered && ka == kb, flagIf sig flNV)
  | .ne => (unordered || ka != kb, flagIf sig flNV)
  | .lt => (!unordered && ka < kb, flagIf unordered flNV)
  | .le => (!unordered && ka ≤ kb, flagIf unordered flNV)
  | .un => (unordered, flagIf sig flNV)

/-- RoundInt of m · 2^e with a sign, and whether it was inexact (R6, R76). -/
def roundInt (mode : RMode) (draw : Nat) (neg : Bool) (m : Nat) (e : Int) : Int × Bool :=
  let (k, inexact) := (Mag.dyadic m e).roundAt mode neg draw 0
  (if neg then -(k : Int) else (k : Int), inexact)

/-- A conversion to an integer type with bounds lo and hi (R70). -/
def numToInt (mode : RMode) (draw : Nat) (lo hi : Int) : Num → Int × Flags
  | .nan _ => (0, flNV)
  | .inf neg => (if neg then lo else hi, flNV)
  | .fin neg m e =>
    let (z, inexact) := roundInt mode draw neg m e
    if z < lo then (lo, flNV) else if hi < z then (hi, flNV) else (z, flagIf inexact flNX)

/-! ### Correctly rounded functions (R147) -/

/-- 1/(m · 2^e). -/
def Mag.recip (m : Nat) (e : Int) : Mag :=
  let at_ := fun (q : Int) =>
    -- floor(2^(−e−q) ÷ m)
    let s := -e - q
    if 0 ≤ s then (2 ^ s.toNat / m, 2 ^ s.toNat % m == 0) else (0, false)
  { top := if m = 2 ^ Nat.log2 m then -(topOf m e) else -(topOf m e) - 1, floorAt := at_ }

/-- √(m · 2^e). -/
def Mag.sqrt (m : Nat) (e : Int) : Mag :=
  { top := topOf m e / 2
    floorAt := fun q =>
      -- floor(√(m · 2^(e − 2q)))
      let s := e - 2 * q
      if 0 ≤ s then
        let n := m * 2 ^ s.toNat
        let r := isqrt n
        (r, r * r == n)
      else
        let n := m / 2 ^ (-s).toNat
        let r := isqrt n
        (r, r * r == n && m % 2 ^ (-s).toNat == 0) }

/-- 1/√(m · 2^e). -/
def Mag.rsqrt (m : Nat) (e : Int) : Mag :=
  let pow2 := m == 2 ^ Nat.log2 m
  let t := topOf m e
  { top := if pow2 && t % 2 == 0 then -(t / 2) else -(t / 2) - 1
    floorAt := fun q =>
      -- floor(√(2^(−e−2q) ÷ m))
      let s := -e - 2 * q
      if 0 ≤ s then
        let n := 2 ^ s.toNat / m
        let r := isqrt n
        (r, r * r == n && 2 ^ s.toNat % m == 0)
      else (0, false) }

/-- Working precision of the two functions that have no exact finite form, in bits (log 14). -/
def workBits : Nat := 384

/-- A fixed-point product with `workBits` fraction bits, rounded down. -/
def fixMul (a b : Nat) : Nat := a * b / 2 ^ workBits

/-- 2^(f ÷ 2^n) in fixed point, rounded down, from the fraction's bits most significant first: bit i contributes the i-th
repeated square root of two. -/
def exp2Bits : Nat → Nat → Nat → Nat → Nat
  | 0, _, _, acc => acc
  | n + 1, f, root, acc =>
    let r := isqrt (root * 2 ^ workBits)
    exp2Bits n f r (if bitAt f n then fixMul acc r else acc)

/-- 2^((−1)^neg · m · 2^e), with e < 0, m odd or the value an integer handled apart (R147). -/
def Mag.exp2 (neg : Bool) (m : Nat) (e : Int) : Mag :=
  let n := (-e).toNat
  let whole : Int := if 0 ≤ e then scaleTo m e 0 else (m / 2 ^ n : Nat)
  let frac := if 0 ≤ e then 0 else m % 2 ^ n
  -- the exponent's integer part rounded down, and its fraction in [0, 1)
  let ip : Int := if neg then (if frac = 0 then -whole else -whole - 1) else whole
  let fp := if neg && frac != 0 then 2 ^ n - frac else frac
  if fp = 0 then Mag.dyadic 1 ip
  else
    let v := exp2Bits n fp (2 * 2 ^ workBits) (2 ^ workBits)
    { top := ip
      floorAt := fun q => ((Mag.dyadic v (ip - workBits)).floorAt q |>.1, false) }

/-- log2 of a significand in [1, 2), in fixed point, by repeated squaring: `k` fraction bits, most significant first. -/
def log2Bits : Nat → Nat → Nat → Nat
  | 0, _, acc => acc
  | k + 1, y, acc =>
    let z := fixMul y y
    if 2 * 2 ^ workBits ≤ z then log2Bits k (z / 2) (2 * acc + 1) else log2Bits k z (2 * acc)

/-- Fraction bits kept of a logarithm. -/
def logBits : Nat := 160

/-- |log2 (m · 2^e)| and its sign, for a value that is not a power of two. -/
def Mag.log2 (m : Nat) (e : Int) : Bool × Mag :=
  let t := topOf m e
  let y := m * 2 ^ workBits / 2 ^ Nat.log2 m
  let f := log2Bits logBits y 0
  let z : Int := t * 2 ^ logBits + f
  -- the exact value lies strictly between z and z + 1 units of 2^−logBits
  let lo := if z < 0 then (-z - 1).toNat else z.toNat
  (z < 0, { top := topOf lo (-(logBits : Int))
            floorAt := fun q => ((Mag.dyadic lo (-(logBits : Int))).floorAt q |>.1, false) })

/-- VRCP (R147, Table 6.5). -/
def fpRecip (mode : RMode) (draw a : Nat) : Nat × Flags :=
  match fp32.decode a with
  | .nan s => (fp32.qnan, flagIf s flNV)
  | .inf neg => (fp32.signed neg 0, 0#6)
  | .fin neg m e =>
    if m = 0 then (fp32.signed neg fp32.infPat, flDZ) else fp32.round mode draw neg (Mag.recip m e)

/-- VRSQ. -/
def fpRsqrt (mode : RMode) (draw a : Nat) : Nat × Flags :=
  match fp32.decode a with
  | .nan s => (fp32.qnan, flagIf s flNV)
  | .inf neg => if neg then (fp32.qnan, flNV) else (0, 0#6)
  | .fin neg m e =>
    if m = 0 then (fp32.signed neg fp32.infPat, flDZ)
    else if neg then (fp32.qnan, flNV)
    else fp32.round mode draw false (Mag.rsqrt m e)

/-- VSQRT. -/
def fpSqrt (mode : RMode) (draw a : Nat) : Nat × Flags :=
  match fp32.decode a with
  | .nan s => (fp32.qnan, flagIf s flNV)
  | .inf neg => if neg then (fp32.qnan, flNV) else (fp32.infPat, 0#6)
  | .fin neg m e =>
    if m = 0 then (a, 0#6)
    else if neg then (fp32.qnan, flNV)
    else fp32.round mode draw false (Mag.sqrt m e)

/-- VEXP2. An exponent beyond ±1,024 is far outside the format and rounds as one at that bound. -/
def fpExp2 (mode : RMode) (draw a : Nat) : Nat × Flags :=
  match fp32.decode a with
  | .nan s => (fp32.qnan, flagIf s flNV)
  | .inf neg => (if neg then 0 else fp32.infPat, 0#6)
  | .fin neg m e =>
    if m = 0 then (0x3F800000, 0#6)
    else if 10 ≤ topOf m e then fp32.round mode draw false (Mag.dyadic 1 (if neg then -1024 else 1024))
    else fp32.round mode draw false (Mag.exp2 neg m e)

/-- VLOG2. -/
def fpLog2 (mode : RMode) (draw a : Nat) : Nat × Flags :=
  match fp32.decode a with
  | .nan s => (fp32.qnan, flagIf s flNV)
  | .inf neg => if neg then (fp32.qnan, flNV) else (fp32.infPat, 0#6)
  | .fin neg m e =>
    if m = 0 then (fp32.signed true fp32.infPat, flDZ)
    else if neg then (fp32.qnan, flNV)
    else if m = 2 ^ Nat.log2 m then fp32.ofNum mode draw (Num.ofInt (topOf m e) 0)
    else
      let (n, x) := Mag.log2 m e
      fp32.round mode draw n x

/-! ### Log grids (R61, R62, R77, R78) -/

/-- The greatest k from `r` up with k^n ≤ x, found from bit `b` down. -/
def rootFrom : Nat → Nat → Nat → Nat → Nat
  | 0, r, n, x => if (r + 1) ^ n ≤ x then r + 1 else r
  | b + 1, r, n, x =>
    let r' := r + 2 ^ (b + 1)
    rootFrom b (if r' ^ n ≤ x then r' else r) n x

/-- GridTab(n, j) = RoundInt(2^(j/n) · 2^23, RNE) (R62): half the floor of 2^(j/n) · 2^24, rounded; no tie occurs. -/
def gridTab (n j : Nat) : Nat := (rootFrom 24 0 n (2 ^ (j + 24 * n)) + 1) / 2

/-- Lin(g, n) as a dyadic: mantissa and exponent (R62). -/
def lin (g : Int) (n : Nat) : Nat × Int :=
  let q := g / n
  (gridTab n (g - n * q).toNat, q - 23)

/-- x ≤ y for dyadics. -/
def dyLe (x y : Nat × Int) : Bool :=
  let q := min x.2 y.2
  scaleTo x.1 x.2 q ≤ scaleTo y.1 y.2 q

/-- The greatest j below n with Lin(n·q + j) ≤ m, found from bit `b` down. -/
def gridStep : Nat → Nat → Int → Nat → Nat × Int → Nat
  | 0, j, _, _, _ => j
  | b + 1, j, q, n, x =>
    let j' := j + 2 ^ b
    gridStep b (if j' < n && dyLe (gridTab n j', q - 23) x then j' else j) q n x

/-- The integer g with Lin(g, n) ≤ m·2^e < Lin(g + 1, n). -/
def gridFloor (n m : Nat) (e : Int) : Int :=
  let q := topOf m e
  n * q + gridStep (Nat.log2 n) 0 q n (m, e)

/-- RoundLinToGrid (R77) of a nonzero magnitude, and whether it was inexact. -/
def roundLinToGrid (n : Nat) (mode : RMode) (draw : Nat) (neg : Bool) (m : Nat) (e : Int) : Int × Bool :=
  let a := gridFloor n m e
  let lo := lin a n
  let hi := lin (a + 1) n
  let q := min e (min lo.2 hi.2)
  let x := scaleTo m e q
  let l := scaleTo lo.1 lo.2 q
  let h := scaleTo hi.1 hi.2 q
  if x = l then (a, false)
  else
    let up := match mode with
      | .rtz => false
      | .rup => !neg
      | .rdn => neg
      | .rne => l + h < 2 * x || (2 * x == l + h && a % 2 != 0)
      | .stp => draw * (h - l) < (x - l) * 65536
    (if up then a + 1 else a, true)

/-- RoundLogToGrid (R78): from a grid of `ns` steps onto one of `nd`. -/
def roundLogToGrid (ns nd : Nat) (mode : RMode) (draw : Nat) (neg : Bool) (h : Int) : Int × Bool :=
  if ns ≤ nd then (h * (nd / ns : Nat), false)
  else
    let k : Nat := ns / nd
    let a := h / k
    let rem := (h - k * a).toNat
    if rem = 0 then (a, false)
    else
      let up := match mode with
        | .rtz => false
        | .rup => !neg
        | .rdn => neg
        | .rne => k < 2 * rem || (2 * rem == k && a % 2 != 0)
        | .stp => draw * k < rem * 65536
      (if up then a + 1 else a, true)

/-- A log value as a linear number, through Lin. -/
def LogVal.toNum (n : Nat) : LogVal → Num
  | .zero => .fin false 0 0
  | .nan => .nan false
  | .num neg g => .fin neg (lin g n).1 (lin g n).2

/-- The exact magnitude exceeds Lin(g, n). -/
def exceedsLin (g : Int) (n m : Nat) (e : Int) : Bool := !(dyLe (m, e) (lin g n))

/-! ### LM16 (R68) -/

def lm16Decode (w : Nat) : LogVal :=
  if w = 0x8000 then .nan
  else if w % 0x8000 = 0 then .zero
  else .num (0x8000 ≤ w) ((w % 0x8000 : Nat) - 16384)

/-- A grid index brought into LM16's range (R80, R156). -/
def lm16OfGrid (neg : Bool) (g : Int) : Nat × Flags :=
  let c := g + 16384
  let s := if neg then 0x8000 else 0
  if c < 1 then (0, flUF ||| flNX)
  else if 32767 < c then (s + 0x7FFF, flSAT)
  else (s + c.toNat, 0#6)

/-- A linear number rounded into LM16 (R156). -/
def lm16OfNum (mode : RMode) (draw : Nat) : Num → Nat × Flags
  | .nan s => (0x8000, flagIf s flNV)
  | .inf neg => ((if neg then 0x8000 else 0) + 0x7FFF, flSAT)
  | .fin neg m e =>
    if m = 0 then (0, 0#6)
    else if mode = .stp && exceedsLin 16383 256 m e then ((if neg then 0x8000 else 0) + 0x7FFF, flSAT ||| flNX)
    else
      let (g, inexact) := roundLinToGrid 256 mode draw neg m e
      let (w, f) := lm16OfGrid neg g
      (w, f ||| flagIf inexact flNX)

/-! ### Log lane words (R155, Table 6.10) -/

def logWordDecode (w : Nat) : LogVal :=
  if bitAt w 31 then .nan else if bitAt w 30 then .zero else .num (bitAt w 29) (signExt w 22)

def logWordEncode : LogVal → Nat
  | .nan => 0x80000000
  | .zero => 0x40000000
  | .num neg g => (if neg then 2 ^ 29 else 0) + wrap g 22

/-- VTOLOG.lb8, .lb6, .lb4 of one element (R156). -/
def logWordOfNum (n : Nat) (mode : RMode) (draw : Nat) : Num → Nat × Flags
  | .nan s => (logWordEncode .nan, flagIf s flNV)
  | .inf neg => (logWordEncode (.num neg (2 ^ 21 - 1)), flSAT)
  | .fin neg m e =>
    if m = 0 then (logWordEncode .zero, 0#6)
    else
      let (g, inexact) := roundLinToGrid n mode draw neg m e
      (logWordEncode (.num neg g), flagIf inexact flNX)

/-! ### Blocks (R64 to R67) -/

/-- A block format of Table 3.2: steps per binade n, bias b, bits of an element field, bytes of a block. -/
structure BlkFmt where
  n : Nat
  b : Nat
  fieldBits : Nat
  bytes : Nat
  deriving DecidableEq, Repr

def lb8 : BlkFmt := ⟨8, 64, 8, 18⟩
def lb6 : BlkFmt := ⟨4, 16, 6, 14⟩
def lb4 : BlkFmt := ⟨2, 4, 4, 10⟩

/-- The element field of element k. -/
def BlkFmt.fieldAt (B : BlkFmt) (blk : List Byte) (k : Nat) : Nat :=
  bits (ofBytes (blk.drop 2)) (B.fieldBits * k + B.fieldBits - 1) (B.fieldBits * k)

/-- BlockDecode (R65), on the format's own grid. -/
def BlkFmt.decode (B : BlkFmt) (blk : List Byte) (k : Nat) : LogVal :=
  let E := (blk.getD 0 0).toNat
  if E = 0 then .zero
  else if E = 0xFF then .nan
  else
    let fld := B.fieldAt blk k
    let c := fld % 2 ^ (B.fieldBits - 1)
    if c = 0 then .zero
    else
      let sg := bits (blk.getD 1 0).toNat (2 * (k / 4) + 1) (2 * (k / 4))
      .num (2 ^ (B.fieldBits - 1) ≤ fld) (B.n * ((E : Int) - 127) - (B.b / 2 : Nat) * sg + ((c : Int) - B.b))

/-- Whether element k of a block is poisoned: its scale byte, its sub-scale byte or a byte of its field is (R159). -/
def BlkFmt.elemPoison (B : BlkFmt) (poison : List Bool) (k : Nat) : Bool :=
  let lo := (B.fieldBits * k) / 8
  let hi := (B.fieldBits * k + B.fieldBits - 1) / 8
  poison.getD 0 false || poison.getD 1 false || poison.getD (2 + lo) false || poison.getD (2 + hi) false

/-- A source element of BlockEncode. -/
inductive BlkSrc where
  | lin (x : Num)
  | log (n : Nat) (x : LogVal)
  deriving DecidableEq, Repr

def BlkSrc.isNan : BlkSrc → Bool
  | .lin x => x.isNan
  | .log _ x => x == .nan

def BlkSrc.isSig : BlkSrc → Bool
  | .lin x => x.isSig
  | .log .. => false

def BlkSrc.isZero : BlkSrc → Bool
  | .lin (.fin _ m _) => m == 0
  | .log _ .zero => true
  | _ => false

/-- An element on the grid of the block: none where zero; an infinite index is written as one above every range. -/
structure GridElem where
  neg : Bool
  g : Int
  deriving DecidableEq, Repr

/-- A grid index that stands for +infinity in step 2 of R67: above every code under every scale. -/
def gridInf : Int := 2 ^ 30

/-- The greatest grid index an element can take: of the format, or of its quad under a given scale, with the sub-scale given for it or
none (R80, R158; log 15). -/
def BlkFmt.topIndex (B : BlkFmt) (scale : Option Nat) (sub : Nat) : Int :=
  match scale with
  | some E => B.n * ((E : Int) - 127) + B.b - 1 - (B.b / 2 : Nat) * sub
  | none => B.n * 127 + B.b - 1

/-- Step 2 of R67 for one element; `top` is the greatest index of its place, beyond which stipple draws nothing (R80). -/
def BlkFmt.toGrid (B : BlkFmt) (mode : RMode) (draw : Nat) (top : Int) : BlkSrc → Option GridElem × Flags
  | .lin (.nan _) => (none, 0#6)
  | .lin (.inf neg) => (some ⟨neg, gridInf⟩, 0#6)
  | .lin (.fin neg m e) =>
    if m = 0 then (none, 0#6)
    else if mode = .stp && exceedsLin top B.n m e then
      (some ⟨neg, gridInf⟩, flSAT ||| flNX)
    else
      let (g, inexact) := roundLinToGrid B.n mode draw neg m e
      (some ⟨neg, g⟩, flagIf inexact flNX)
  | .log _ .zero => (none, 0#6)
  | .log _ .nan => (none, 0#6)
  | .log ns (.num neg h) =>
    let (g, inexact) := roundLogToGrid ns B.n mode draw neg h
    (some ⟨neg, g⟩, flagIf inexact flNX)

def maxInt (xs : List Int) : Int := xs.foldl max (xs.getD 0 0)
def minInt (xs : List Int) : Int := xs.foldl min (xs.getD 0 0)

/-- ceil(a ÷ n) for an integer a and a positive n. -/
def ceilInt (a : Int) (n : Nat) : Int := -((-a) / n)

/-- Step 4 of R67 for one quad's relative indices. -/
def BlkFmt.subScale (B : BlkFmt) (rel : List Int) : Nat :=
  if rel.isEmpty then 0
  else
    let h := B.b / 2
    let need := max 0 (ceilInt (1 - B.b - minInt rel) h)
    let room := (B.b : Int) - 1 - maxInt rel
    let cap := if room < 0 then 0 else room / h
    (min need (min cap 3)).toNat

/-- A block's bytes from its scale byte, sub-scales, and element fields, in canonical form (R66). -/
def BlkFmt.assemble (B : BlkFmt) (E : Nat) (sg fields : List Nat) : List Byte :=
  let sub := (List.range 4).foldl (fun a q => a + sg.getD q 0 * 4 ^ q) 0
  let body := (List.range 16).foldl (fun a k => a + fields.getD k 0 * 2 ^ (B.fieldBits * k)) 0
  BitVec.ofNat 8 E :: BitVec.ofNat 8 sub :: toBytes (B.bytes - 2) body

def BlkFmt.zeroBlock (B : BlkFmt) : List Byte := List.replicate B.bytes 0
def BlkFmt.nanBlock (B : BlkFmt) : List Byte := 0xFF#8 :: List.replicate (B.bytes - 1) 0

/-- BlockEncode (R67, R158). `scale` and `subs` are those an operand gives, `draw k` the draw of element k. -/
def BlkFmt.encode (B : BlkFmt) (mode : RMode) (draw : Nat → Nat) (scale : Option Nat) (subs : Option (List Nat))
    (xs : List BlkSrc) : List Byte × Flags :=
  let sig := flagIf (xs.any (·.isSig)) flNV
  if xs.any (·.isNan) then (B.nanBlock, sig)
  else if scale = some 0xFF then (B.nanBlock, 0#6)
  else if xs.all (·.isZero) then (B.zeroBlock, 0#6)
  else if scale = some 0 then (B.zeroBlock, flNX ||| flUF)
  else
    let top := fun k => B.topIndex scale ((subs.getD []).getD (k / 4) 0)
    let ge := (List.range 16).map fun k => B.toGrid mode (draw k) (top k) (xs.getD k (.lin (.fin false 0 0)))
    let gs := ge.filterMap (·.1)
    let e : Int := match scale with
      | some E => (E : Int) - 127
      | none => min (max (ceilInt (maxInt (gs.map (·.g)) - (B.b - 1)) B.n) (-126)) 127
    let sg : List Nat := match subs with
      | some l => l
      | none => (List.range 4).map fun q =>
          B.subScale ((ge.drop (4 * q)).take 4 |>.filterMap (fun x => x.1.map (fun y => y.g - B.n * e)))
    let codes := (List.range 16).map fun k =>
      match (ge.getD k (none, 0#6)).1 with
      | none => (0, 0, 0#6)
      | some y =>
        let c := y.g - B.n * e + B.b + (B.b / 2 : Nat) * (sg.getD (k / 4) 0)
        let top : Int := 2 * B.b - 1
        if top < c then (top.toNat, (if y.neg then 1 else 0), flSAT)
        else if c < 1 then (0, 0, flUF ||| flNX)
        else (c.toNat, (if y.neg then 1 else 0), 0#6)
    let fl := orFlags (ge.map (·.2)) ||| orFlags (codes.map (·.2.2))
    if codes.all (fun c => c.1 == 0) then (B.zeroBlock, fl)
    else
      let live := fun q => (List.range 4).any fun j => (codes.getD (4 * q + j) (0, 0, 0#6)).1 != 0
      let sg' := (List.range 4).map fun q => if live q then sg.getD q 0 else 0
      (B.assemble (e + 127).toNat sg' (codes.map fun c => c.2.1 * 2 ^ (B.fieldBits - 1) + c.1), fl)

/-! ### A64 (R71) -/

/-- A number rounded into an A64 under anchor A: acc, whether it clamped, and flags (R160, Table 3.7); beyond the largest magnitude
stipple draws nothing (R80). -/
def a64OfNum (mode : RMode) (draw : Nat) (A : Int) : Num → Int × Bool × Flags
  | .nan _ => (0, true, flNV ||| flSAT)
  | .inf neg => (if neg then -(2 ^ 63 - 1) else 2 ^ 63 - 1, true, flSAT)
  | .fin neg m e =>
    if mode = .stp && !(dyLe (m, e + 40 - A) (2 ^ 63 - 1, 0)) then (if neg then -(2 ^ 63 - 1) else 2 ^ 63 - 1, true, flSAT ||| flNX)
    else
      let (z, inexact) := roundInt mode draw neg m (e + 40 - A)
      let (y, sat) := sat64 z
      (y, sat, flagIf inexact flNX ||| flagIf sat flSAT)

/-- An A64 value as a number. -/
def a64ToNum (A : Int) (acc : Int) : Num := Num.ofInt acc (A - 40)

/-! ### RDW (R72 to R75) -/

/-- A reduction word. -/
structure Rdw where
  b0 : Word
  b1 : Word
  b2 : Word
  deriving DecidableEq, Repr

def Rdw.nanWord : Rdw := ⟨0, 0, 0x8000000000000000#64⟩

/-- The fresh word of an integer already clamped (R73). -/
def Rdw.ofInt (big : Int) : Rdw :=
  ⟨BitVec.ofInt 64 (big % 2 ^ 40), BitVec.ofInt 64 (big / 2 ^ 40 % 2 ^ 40), BitVec.ofInt 64 (big / 2 ^ 80)⟩

/-- ToRdw (R73). `srcSat` is the SAT bit of an A64 source. -/
def Rdw.ofNum (q : Int) (srcSat : Bool) : Num → Rdw × Flags
  | .nan s => (Rdw.nanWord, flagIf s flNV ||| flagIf srcSat flSAT)
  | .inf neg =>
    let (big, _) := satRange (if neg then -(2 ^ 130) else 2 ^ 130) (-(2 ^ 119)) (2 ^ 119 - 1)
    (Rdw.ofInt big, flSAT)
  | .fin neg m e =>
    let (z, _) := roundInt .rne 0 neg m (e - q)
    let (big, sat) := satRange z (-(2 ^ 119)) (2 ^ 119 - 1)
    (Rdw.ofInt big, flagIf (sat || srcSat) flSAT)

/-- RdwAdd (R74). -/
def Rdw.add (u w : Rdw) : Rdw :=
  if u = Rdw.nanWord || w = Rdw.nanWord then Rdw.nanWord else ⟨u.b0 + w.b0, u.b1 + w.b1, u.b2 + w.b2⟩

/-- The number a word stands for under quantum Q (R72, R75). -/
def Rdw.toNum (q : Int) (u : Rdw) : Num :=
  if u = Rdw.nanWord then .nan false
  else Num.ofInt (u.b0.toInt + u.b1.toInt * 2 ^ 40 + u.b2.toInt * 2 ^ 80) q

end Sys2Proof.Machine
end

