-- ==== Sys2Proof/Machine/State.lean ====
section
/-! DEFINITION. The state of one Wedrin package as plain data: contexts, tiles, dies, hub, switches, and the bookkeeping of
the step (which agent acts next, the bundle in issue, the subject of an event). -/

namespace Sys2Proof.Machine

/-! ### Memories -/

/-- A byte memory in canonical form: `cells` lists, in rising order, the bytes that differ from what an unlisted address
reads as, and `poison` the poisoned bytes (13 R356). -/
structure Mem where
  cells : List Host.Cell := []
  poison : FMap Unit := []
  deriving DecidableEq, Repr

/-- An accumulator entry: acc, SAT bit, poison (04 R71, 00 R6). -/
structure AccEntry where
  val : Word := 0
  sat : Bool := false
  poison : Bool := false
  deriving DecidableEq, Repr

/-- A stationary weight on the grid of eighths, with poison (04 R90). -/
structure Weight where
  v : LogVal := .zero
  poison : Bool := false
  deriving DecidableEq, Repr

/-- A weight set: w[k][j] at key 128·k + j, unlisted weights zero; wide, valid, the context that loaded it (04 R90). -/
structure WeightSet where
  w : FMap Weight := []
  wide : Bool := false
  valid : Bool := false
  owner : Nat := 0
  deriving DecidableEq, Repr

/-! ### Contexts -/

/-- A scalar register with its poison tag (05 R115). -/
structure SReg where
  val : Word := 0
  poison : Bool := false
  deriving DecidableEq, Repr

/-- A lane with its poison tag (06 R133). -/
structure LaneVal where
  val : Lane := 0
  poison : Bool := false
  deriving DecidableEq, Repr

/-- A vector register: 64 lanes, lane 0 first. -/
abbrev VReg := List LaneVal

/-- A vector register of zeros. -/
def VReg.zero : VReg := List.replicate 64 {}

/-- A mask register: 64 bits, each with its poison tag (06 R137). -/
structure MaskReg where
  bits : Word := 0
  poison : Word := 0
  deriving DecidableEq, Repr

/-- A sync register (11 R298, Table 11.6). -/
structure SyncReg where
  inc : BitVec 8 := 0
  ssem : BitVec 8 := 0
  thr : BitVec 16 := 0
  wsem : BitVec 8 := 0
  deriving DecidableEq, Repr

/-- What holds the next bundle of a blocked context (11 Table 11.5). -/
inductive BlockCause where
  | semaphore | phaser | watermark | matrixBusy | fabricFifo | registerFill
  deriving DecidableEq, Repr

/-- Context states (11 R293). `ready` stands for Ready and Running: the selector record says who held issue last. A context
that has trapped and waits for its results is `trapping`; one being saved `saving`; one placed and not released `loading`. -/
inductive CtxState where
  | loading | ready | blocked (why : BlockCause) | paused | trapping | parked | ending | saving | saved | restoring
  deriving DecidableEq, Repr

/-- Where a result lands: the effective register named at issue (06 R134), and what it writes there. Mask and vector results
list what they write: a unit they leave out keeps what it holds at landing (06 R141). -/
inductive Dest where
  | scalar (n : Nat) (v : SReg)
  | pred (n : Nat) (v : Bool)
  | mask (n : Nat) (sel : Word) (v : MaskReg)
  | vector (n : Nat) (lanes : List (Option LaneVal))
  | csr (n : Nat) (v : Word)
  deriving DecidableEq, Repr

/-- A result in flight: the cycle of its die in which it lands, its destination, the flags it ORs into VFLAGS. `waits` marks
a remote value that is not back, `free` one that comes back late and takes a free write port; a register is held from the
nominal cycle on while such a landing remains (02 R38, 09 R234). -/
structure Landing where
  id : Nat
  due : Nat
  dest : Dest
  flags : Flags := 0
  free : Bool := false
  waits : Bool := false
  nominal : Option Nat := none
  deriving DecidableEq, Repr

/-- Kinds of trap (13 R342). -/
inductive TrapKind where
  | precise | engine | translation
  deriving DecidableEq, Repr

/-- The record of a trap or fault (13 R343). -/
structure TrapRecord where
  kind : TrapKind := .precise
  cause : BitVec 8 := 0
  pc : BitVec 17 := 0
  slot : BitVec 4 := 0
  estep : BitVec 16 := 0
  addr : Word := 0
  ret : BitVec 17 := 0
  /-- Walk level of a malformed translation (13 Table 13.3). -/
  level : BitVec 2 := 0
  /-- The command an engine fault holds. -/
  cmd : Nat := 0
  deriving DecidableEq, Repr

/-- A loop level (11 R304, R286): kind 0 absent, 1 temporal, 2 spatial over tiles, 3 spatial over dies. -/
structure LoopLevel where
  kind : Nat := 0
  count : Nat := 0
  step : Nat := 0
  reiss : Bool := false
  cnt : BitVec 32 := 0
  n : BitVec 32 := 0
  active : Bool := false
  deriving DecidableEq, Repr

/-- A phaser by its place: hub phaser or phaser of a die, and its number there (11 R310). -/
structure PhaserRef where
  hub : Bool := false
  die : Nat := 0
  num : Nat := 0
  deriving DecidableEq, Repr

/-- Roles of a phaser slot (11 R311). -/
inductive Role where
  | sig | wait | sw
  deriving DecidableEq, Repr

/-- A filled phaser slot (11 R311, R312). -/
structure PhaserSlot where
  phaser : PhaserRef := {}
  role : Role := .sig
  arrival : Nat := 0
  waitPh : Nat := 0
  binding : Option Nat := none
  overrun : Bool := false
  deriving DecidableEq, Repr

/-- Where a piece of an address range lies (08 R187, R188). -/
inductive Space where
  | hbm | wstore (die : Nat) | scratch (tile : Nat) | acc (tile : Nat) | om (tile : Nat) | switch (sw : Nat)
  | remote (node : Nat) (rsp : Nat)
  deriving DecidableEq, Repr

/-- A run of bytes of an operand after resolution: virtual address of its first byte, space and physical offset, length,
ordering attribute (0 UN, 1 RC, 2 SO), key slot, permissions (12 R325), and the sheet it lies in. -/
structure Seg where
  va : Nat
  space : Space
  off : Nat
  len : Nat
  ord : Nat := 1
  key : Nat := 0
  deriving DecidableEq, Repr

/-- A translation as the TLBs hold it (12 R326): tenant, space (0 HBM, 1 weight store, 2 and 3 remote), page shift and number,
physical base, attributes. -/
structure TlbEntry where
  tenant : Nat
  space : Nat
  shift : Nat
  vpn : Nat
  base : Nat
  ord : Nat
  perm : Nat
  key : Nat
  cow : Bool
  deriving DecidableEq, Repr

/-- How a walk ends (12 R325). -/
inductive WalkEnd where
  | leaf (e : TlbEntry)
  | unmapped
  | malformed (level : Nat)
  deriving DecidableEq, Repr

/-- A walk the blocked bundle of a context waits for, with its result once it has completed (09 R217). -/
structure WalkReq where
  space : Nat
  off : Nat
  res : Option WalkEnd := none
  deriving DecidableEq, Repr

/-- A range entry, its four words (12 Table 12.3). -/
structure RangeEntry where
  w0 : Word := 0
  base : Word := 0
  limit : Word := 0
  disp : Word := 0
  deriving DecidableEq, Repr

/-- A layout record (09 R224): pinned ranges translated, generation, permissions. -/
structure Layout where
  live : Bool := false
  gen : BitVec 16 := 1
  va : Nat := 0
  len : Nat := 0
  canRead : Bool := false
  canWrite : Bool := false
  segs : List Seg := []
  pins : Nat := 0
  /-- Space 0 or 1, and whether every byte lies in the named die's store. -/
  space : Nat := 0
  deriving DecidableEq, Repr

/-- The checkpoint of an idempotent region (13 R359). -/
structure Checkpoint where
  pc : BitVec 17 := 0
  rbase : BitVec 5 := 0
  loops : FMap LoopLevel := []
  links : List Nat := []
  deriving DecidableEq, Repr

/-- A pre-emption request (13 R360): its form, its effect tick on the context's die, whether that tick has come, whether it acts as
urgent from then on (R361, R362), and whether it waits at an RGN bundle for the context's commands. -/
structure Preempt where
  urgent : Bool
  effectTick : Nat
  live : Bool := false
  rolling : Bool := false
  atRgn : Bool := false
  deriving DecidableEq, Repr

/-- A far acquire in progress (09 R235): the X command or mesh request that carries it, its bundle, and what it brought back. -/
structure FarAcquire where
  id : Nat
  pc : BitVec 17 := 0
  back : Option (Word × Bool × Flags) := none
  deriving DecidableEq, Repr

/-- A hardware context: its private registers and control registers (01 Table 1.2, 05 Table 5.3), its place in the launch,
and the state of its progress. -/
structure Ctx where
  st : CtxState := .ready
  sregs : FMap SReg := []
  preds : BitVec 16 := 1
  masks : FMap MaskReg := []
  vregs : FMap VReg := []
  absent : List Nat := []
  fillAt : Nat := 0
  sync : FMap SyncReg := []
  pc : BitVec 17 := 0
  /-- The macro PC has passed the last halfword of the code store (01 R17). -/
  pcOver : Bool := false
  cb : BitVec 17 := 0
  literalPaid : Bool := false
  inflight : List Landing := []
  /-- The cycle in which late values last took write ports, and the registers they took (02 R38). -/
  latePorts : Nat × List Nat := (0, [])
  sstep : Bool := false
  prio : BitVec 3 := 0
  valloc : BitVec 7 := 0
  rbase : BitVec 5 := 0
  fmtsel : BitVec 4 := 0
  fmtloop : BitVec 3 := 0
  seed : Word := 0
  stepReg : Word := 0
  latemax : BitVec 32 := 0x400
  ftrmax : BitVec 32 := 0x10000
  regionmax : BitVec 32 := 0x100000
  tenant : BitVec 12 := 0
  lvl : BitVec 1 := 0
  trapcause : BitVec 8 := 0
  trappc : BitVec 17 := 0
  trapslot : BitVec 4 := 0
  estep : BitVec 16 := 0
  trapaddr : Word := 0
  tvec : BitVec 17 := 0
  engineFlag : Bool := false
  retPoint : BitVec 17 := 0
  heldCmd : Nat := 0
  idx : FMap (BitVec 32) := []
  gdim : FMap (BitVec 32) := []
  sembase : BitVec 8 := 0
  semcnt : BitVec 9 := 0
  dictbase : BitVec 13 := 0
  dictlen : BitVec 14 := 0
  vflags : BitVec 6 := 0
  fmt : FMap Word := []
  links : List Nat := []
  loops : FMap LoopLevel := []
  phslots : FMap PhaserSlot := []
  layouts : FMap Layout := []
  /-- Watched ranges by channel: base and end (09 R228). -/
  watched : FMap (Nat × Nat) := []
  lockLeft : Option Nat := none
  inFtr : Bool := false
  ftrTimer : Nat := 0
  /-- Ports named by F commands in the open fixed-time region (10 R260). -/
  ftrPorts : List Nat := []
  regionTimer : Nat := 0
  nonRepeatable : Bool := false
  /-- Counts the context's regions, so that a command names the region it was accepted in. -/
  regionNo : Nat := 0
  check : Checkpoint := {}
  blockedFor : Nat := 0
  wdog : BitVec 8 := 0
  pendingTrap : Option (TrapRecord × Nat) := none
  pendingFaults : List TrapRecord := []
  pendingStep : Bool := false
  preempt : Option Preempt := none
  farAcq : Option FarAcquire := none
  walks : List WalkReq := []
  /-- A FENCE stands over the mesh requests of its own bundle: later bundles wait for those below this identity (08 R210). -/
  fenceOver : Option Nat := none
  ticket : Option Nat := none
  /-- Results in flight when the trap was raised (13 Table 13.3, INFL). -/
  infl : Nat := 0
  /-- The kind of the entry the context is parked under (13 Table 13.3), the command that entry holds, and its identity while it is
  pending. -/
  parkedKind : Nat := 0
  parkHeld : Nat := 0
  entry : Nat := 0
  launch : Nat := 0
  inst : Nat := 0
  member : Nat := 0
  sup : BitVec 1 := 0
  phbase : Nat := 0
  phcnt : Nat := 0
  hpbase : Nat := 0
  hpcnt : Nat := 0
  /-- The code image starts here and is this long; freed with the context. -/
  codeLen : Nat := 0
  dictCap : Nat := 0
  deriving DecidableEq, Repr

/-! ### Engine commands -/

/-- How far an accepted engine command is: waiting to begin, running, held after an engine fault (13 R346). -/
inductive CmdState where
  | queued | running | held
  deriving DecidableEq, Repr

/-- What a matrix command does (04 Table 4.3). -/
inductive MOp where
  | wload | wloadw | stream (transposed ovw : Bool) | drain (rdw : Bool) | accclr | anchor | oclaim | orelease | fmtsel
  | accpin (clr : Bool)
  deriving DecidableEq, Repr

/-- What every engine command carries from its issue: who issued it, from which bundle, its sync register, and the SEED and
STEP sampled in cycle 0 (03 R81). -/
structure CmdHead where
  id : Nat := 0
  ctx : Nat := 0
  pc : BitVec 17 := 0
  slot : Nat := 0
  sync : SyncReg := {}
  syNum : Nat := 0
  seed : Word := 0
  step : Word := 0
  region : Nat := 0
  issued : Nat := 0
  st : CmdState := .queued
  /-- The SY wait has been met and its threshold subtracted (11 R299). -/
  waited : Bool := false
  began : Nat := 0
  /-- Cycles by which refused accesses have delayed the command (08 R193). -/
  delay : Nat := 0
  /-- Engine steps done (01 R18). -/
  steps : Nat := 0
  flags : Flags := 0
  /-- Bytes written to the destination, declared at completion (11 R314). -/
  written : Nat := 0
  /-- A command that ERES or UNPARK resumed: it has begun before, and makes no SY wait again (04 R102). -/
  begunOnce : Bool := false
  /-- A discard cut the command short: it signals, flags and declares nothing (R382). -/
  cut : Bool := false
  /-- Since when an access of the command has waited for its banks or for an answer (08 R193, 13 R366). -/
  since : Option Nat := none
  deriving DecidableEq, Repr

/-- A row of a matrix command between its read and its last write (04 Tables 4.5, 4.6, 4.8): its number, the operand of a STREAM, the
bytes a DRAIN or WLOADW writes, and their flags. -/
structure RowInFlight where
  i : Nat
  ops : List Weight := []
  cells : List (Byte × Bool) := []
  flags : Flags := 0
  deriving DecidableEq, Repr

/-- A matrix command (04 R99). -/
structure MCmd where
  head : CmdHead
  op : MOp
  ar : Nat := 0
  ot : Nat := 0
  os : Nat := 0
  a : Word := 0
  b : Word := 0
  /-- The format-table entry index resolved in the issue cycle (04 R98). -/
  entry : Nat := 0
  /-- The entry's image read at the begin cycle. -/
  image : Word := 0
  /-- Rows read, rows cleared, rows written, and those read and not wholly written. -/
  rows : Nat := 0
  cleared : Nat := 0
  puts : Nat := 0
  pipe : List RowInFlight := []
  /-- FMTSEL with an address has read its image. -/
  loaded : Bool := false
  /-- WLOADW: bytes read with the last 32-byte unit of a row that lie past the row, and where in the layout they start (07 R168). -/
  carry : Nat × List (Byte × Bool) := (0, [])
  /-- The number of a loader command, and the loader command whose set a STREAM uses (04 R90). -/
  loader : Nat := 0
  hasSet : Bool := false
  /-- WLOADW: the layout's pieces at issue. -/
  segs : List Seg := []
  /-- Rows that an urgent pre-emption still lets the command do (04 R103). -/
  rowLimit : Option Nat := none
  deriving DecidableEq, Repr

/-- What a fabric command does (10 Table 10.5). -/
inductive FOp where
  | send | recv | addReg | addAcc (rdw : Bool) | relay
  deriving DecidableEq, Repr

/-- A timed beat: 64 bytes, each with its poison tag (10 R264). -/
structure Beat where
  bytes : List Byte
  poison : List Bool
  deriving DecidableEq, Repr

/-- An issued fabric command (10 R267): its port, its count, its address, the beats it popped, and how many it has handled. -/
structure FCmd where
  head : CmdHead
  op : FOp
  port : Nat := 0
  n : Nat := 0
  a : Nat := 0
  beats : List Beat := []
  handled : Nat := 0
  deriving DecidableEq, Repr

/-- A beat on its way (10 R265): the tile and port it arrives at, and the cycle of the sender's die in which it is present. -/
structure Flying where
  die : Nat
  due : Nat
  tile : Nat
  port : Nat
  beat : Beat
  id : Nat := 0
  deriving DecidableEq, Repr

/-- A phaser (11 R311): tagged to a launch; completed phases; signalling members of the current phase and of later phases;
arrivals; required and pending bytes; the ticks of the four dies at each recent completion (R315). -/
structure Phaser where
  launch : Nat := 0
  ph : Nat := 0
  nsig : Nat := 0
  nsigNext : Nat := 0
  narr : Nat := 0
  target : Nat := 0
  pend : Nat := 0
  overrun : Bool := false
  got : Bool := false
  doneAt : FMap (List Nat) := []
  deriving DecidableEq, Repr

/-- Accumulator accesses of the L slot (09 R233). -/
inductive AccOp where
  | lda | sta | aadd | aswp
  deriving DecidableEq, Repr

/-- An L-slot access under way to another tile's accumulator entry (09 R234): who made it, the entry, the operation and its
data, the cycle of the issuer's die in which it can reach the entry, the way back in cycles, and the landing it serves. -/
structure MeshReq where
  id : Nat
  tile : Nat
  ctx : Nat
  /-- Cycle of the issuer's die in which it departed, and the latency L of its form. -/
  lat : Nat := 0
  target : Nat
  row : Nat
  col : Nat
  op : AccOp
  data : SReg
  arrive : Nat
  way : Nat
  far : Bool := false
  /-- Far acquire: performed, and due back in this cycle. -/
  backAt : Option Nat := none
  got : Word × Bool × Flags := (0, false, 0)
  deriving DecidableEq, Repr

/-- Atomic operations of a switch (09 R243). -/
inductive AtomOp where
  | add | swap | cas | minI | maxI | minN | maxN
  deriving DecidableEq, Repr

/-- What an X command does (09 Table 9.2, 07 R174). -/
inductive XOp where
  | copy | gather | scatter | layreg | laydrop | smalloc | smfree | smquery | smld | smst | smatom (op : AtomOp)
  | burnish | recipe
  deriving DecidableEq, Repr

/-- One operand range of a command: its address as written, its length, and where it lies. -/
structure Side where
  va : Nat := 0
  len : Nat := 0
  segs : List Seg := []
  deriving DecidableEq, Repr

/-- A command of the copy engine (09 R214). `reads` and `writes` are its footprint; `steps` of the head counts its done engine
steps, `total` its steps; `pos` counts the bytes moved of the step under way. -/
structure XCmd where
  head : CmdHead
  op : XOp
  ch : Nat := 0
  td : Nat := 0
  /-- 0 none, 1 acquire, 2 release, 3 both (09 R219). -/
  ord : Nat := 0
  far : Bool := false
  a : Word := 0
  b : Word := 0
  c : Word := 0
  d : Word := 0
  src : Side := {}
  dst : Side := {}
  list : Side := {}
  reads : List Seg := []
  writes : List Seg := []
  /-- The translations taken at issue: space, page shift, page number (09 R217). -/
  idents : List (Nat × Nat × Nat) := []
  /-- Layout records the command translated through (09 R227). -/
  layouts : List Nat := []
  tenant : Nat := 0
  /-- Bytes fetched and not yet written; where the next byte is fetched from, and where the next one goes. -/
  buf : List (Byte × Bool) := []
  srcAt : Nat := 0
  dstAt : Nat := 0
  /-- Since when the next fetch has waited for its banks (08 R193), and when the remote request under way departed (13 R366). -/
  fetchSince : Option Nat := none
  asked : Option Nat := none
  /-- The element under way of GATHER or SCATTER, its index read: where it comes from, where it goes, its length (09 R223). -/
  unit : Option (Nat × Nat × Nat) := none
  /-- Runs of bytes written to this tile's scratchpad so far: first byte and length (09 R229). -/
  wrote : List (Nat × Nat) := []
  value : Option SReg := none
  /-- The scalar that the register form of SMST stores is poisoned. -/
  dataPoison : Bool := false
  status : Nat := 0
  /-- A non-OK status ends the command before its destination is whole. -/
  stopped : Bool := false
  /-- LAYREG: translations pinned so far (09 R226). BURNISH: the pieces of its weights. -/
  pinned : List Seg := []
  pinCount : Nat := 0
  /-- BURNISH: the recipe read at step 1 (07 R176). -/
  image : List Byte := []
  /-- BURNISH: groups updated; new weights, by 32-byte unit of the command's range, and moments that are not written yet (R168); weights
  read ahead, by unit too; and whether the command has been the only user of the die's burnishers and of HBM since it began (R177). Its
  `buf` holds what has been read of the next group's gradient and state. -/
  groups : Nat := 0
  tail : FMap (List (Byte × Bool)) := []
  panel : List (Byte × Bool) := []
  ahead : FMap (List (Byte × Bool)) := []
  alone : Bool := true
  deriving DecidableEq, Repr

/-! ### The bundle in issue -/

/-- What a failing check does besides ending the bundle. -/
inductive FailEffect where
  | none
  | clearSemErr (sem : Nat)
  | clearPhaserOverrun (k : Nat)
  | clearFifoOverrun (port : Nat)
  | startWalks (vas : List Nat)
  /-- The far acquire of the L slot departs, or is over (09 R235). -/
  | farDepart (target row col : Nat) (op : AccOp) (data : SReg) (way : Nat)
  | farOver
  /-- The far acquire of the X slot is accepted (09 R235). -/
  | farAccept (cmd : XCmd)
  /-- A lowered die is to return to the nominal clock (10 R255). -/
  | nominal
  deriving DecidableEq, Repr

/-- How a check fails: a trap of a cause, a hold that blocks outside a fixed-time region and is a breach inside one (10 Table
10.2), or ALIGN's pause. -/
inductive FailKind where
  | trap (kind : TrapKind) (cause : Nat) (addr : Word) (level : Nat)
  | hold (why : BlockCause) (reason port detail : Nat)
  | pause
  deriving DecidableEq, Repr

/-- A failed check of one slot, in its phase of 02 R46. -/
structure Fail where
  phase : Nat
  slot : Nat
  kind : FailKind
  effect : FailEffect := .none
  deriving DecidableEq, Repr

/-- Judging a bundle of several operations, committing it, or both at once for a bundle of one. -/
inductive IssueMode where
  | whole | judge | commit
  deriving DecidableEq, Repr

/-- The bundle in issue: whose it is, where it stands, its header, and what its operations have found so far. -/
structure Issue where
  tile : Nat := 0
  ctx : Nat := 0
  pc : BitVec 17 := 0
  nextPc : Nat := 0
  hdr : Header := Header.ofWord 0
  slot : Nat := 0
  mode : IssueMode := .whole
  /-- Every other slot is NOP and the header is zero but for the ports (13 R348, 09 R235). -/
  alone : Bool := true
  zeroHdr : Bool := true
  lvl : BitVec 1 := 0
  /-- TRAPCAUSE was not 0 when the bundle issued (13 R343). -/
  trapOpen : Bool := false
  fails : List Fail := []
  lands : List (Nat × Landing) := []
  /-- Scratchpad banks the L slot uses in cycle 1, with the address a conflict records. -/
  banks : List Nat := []
  bankAddr : Word := 0
  /-- Scratchpad bank cycles the F slot reserves: bank and cycle (10 R266). -/
  fabBanks : List (Nat × Nat) := []
  /-- The semaphore the C slot changes, and the value it leaves there for the F slot's wait (02 R50). -/
  semLeft : Option (Nat × Nat) := none
  target : Option Nat := none
  nonRep : Bool := false
  /-- The mesh request that the L slot sends: a release or an F command of the bundle needs it performed (08 R205, R211). -/
  sent : Option MeshReq := none
  /-- The scalar that the X slot names in TD, 0 for none (09 R234), and the ports that the F slot names (10 R260). -/
  td : Nat := 0
  fabPorts : List Nat := []
  /-- The context as it stood before the bundle (02 R34). -/
  pre : Ctx := {}
  deriving DecidableEq, Repr

/-! ### Tiles -/

/-- A semaphore (11 R297). -/
structure Sem where
  value : BitVec 16 := 0
  err : Bool := false
  deriving DecidableEq, Repr

/-- A bank lock in force: its context, its banks, and the last cycle of the hold once it is known (08 R195). -/
structure BankLock where
  ctx : Nat
  bankA : Nat
  bankB : Nat
  ending : Option Nat := none
  deriving DecidableEq, Repr

/-- Status record of a copy channel: status and prefix length (09 R241). -/
structure ChannelRecord where
  status : BitVec 8 := 0
  prefLen : Nat := 0
  deriving DecidableEq, Repr

/-- A tile: the state its four contexts share (01 Table 1.2) and the selector's memory (11 R294). -/
structure Tile where
  owner : Option Nat := none
  scratch : Mem := {}
  om : Mem := {}
  acc : FMap AccEntry := []
  anchors : FMap (BitVec 16) := []
  claims : FMap Nat := []
  pins : FMap Nat := []
  set0 : WeightSet := {}
  set1 : WeightSet := {}
  loaders : Nat := 0
  code : FMap (BitVec 16) := []
  codeBad : FMap Unit := []
  dict : FMap (BitVec 384) := []
  dictBad : FMap Unit := []
  sems : FMap Sem := []
  mq : List MCmd := []
  xq : List XCmd := []
  fq : List FCmd := []
  /-- The cycle in which a matrix command last began (04 R100). -/
  mBeganAt : Option Nat := none
  /-- The copy command that writes a beat in the next cycle, and the one that fetches bytes (09 R215). -/
  beat : Option Nat := none
  fetch : Option Nat := none
  /-- The channels served last (09 R215). -/
  lastCh : Nat := 7
  lastFetch : Nat := 7
  channels : FMap ChannelRecord := []
  tlb : List TlbEntry := []
  fifos : FMap (List Beat) := []
  overruns : FMap Nat := []
  /-- Reserved fabric cycles of this tile's mesh links: port and cycle (10 R266). -/
  linkRes : List (Nat × Nat) := []
  /-- Scratchpad bank cycles reserved by fabric commands: bank and cycle (10 R266). -/
  bankRes : List (Nat × Nat) := []
  /-- Banks granted to engine accesses, each with the cycle it is granted for (08 R193). -/
  granted : List (Nat × Nat) := []
  /-- Matrix commands that are granted the banks of their access in the next cycle. -/
  granteds : List Nat := []
  quantum : BitVec 16 := 0x1000
  lastCtx : Nat := 3
  /-- The cycle in which the last holder last held issue, and the cycle in which it took issue. -/
  heldAt : Option Nat := none
  tookAt : Nat := 0
  yielded : Bool := false
  trapEntrySwitch : Bool := false
  lock : Option BankLock := none
  ctxs : FMap Ctx := []
  deriving DecidableEq, Repr

/-! ### Dies, hub and the whole -/

/-- What was heard on a link: the cycle in which the last beacon was present, and the DIST of each beacon of the last 4,096 cycles with its
cycle, the newest first (10 R249, R251). -/
structure Heard where
  heardAt : Nat
  dists : List (Nat × Nat) := []
  deriving DecidableEq, Repr

/-- A fault-queue entry waiting for its slot: its identity, the tenant told of it, and its bytes 4 to 31 (13 Table 13.3). -/
structure QEntry where
  id : Nat
  tenant : Nat
  bytes : List Byte
  deriving DecidableEq, Repr

/-- A recipe entry: the tenant that loaded it, and its image (07 R170). -/
structure Recipe where
  tenant : Nat
  image : List Byte
  deriving DecidableEq, Repr

/-- A compute die, or at key 4 what the hub die has of the same: its tick, its part in the beacon graph, its range entries. -/
structure Die where
  tick : Nat := 0
  keyoff : Word := 0
  linklat : FMap (BitVec 16) := []
  /-- Stretch announcements: increment and effective key time (10 R253). -/
  stretches : List (Nat × Nat) := []
  wstore : Mem := {}
  /-- Bytes that bank groups of the weight store move: group, cycle, bytes (07 section on the weight store; 04 R106). -/
  groupUse : List (Nat × Nat × Nat) := []
  ranges : FMap RangeEntry := []
  tlb : List TlbEntry := []
  pinsUsed : Nat := 0
  fenced : Bool := false
  /-- Registration (10 R251): registered, hop count, parent link, good updates in a row, what each link last brought, the key die
  followed, and when the parent last spoke. -/
  registered : Bool := false
  dist : Nat := 255
  parent : Option Nat := none
  good : Nat := 0
  heard : FMap Heard := []
  keyId : Nat := 0
  /-- Links other than torus ports that are down, and those that have left the beacon graph (10 R250). -/
  downLinks : List Nat := []
  apartLinks : List Nat := []
  /-- The cycle of the hub in which the die's hub link went down (13 R369). -/
  hubDownAt : Option Nat := none
  /-- Clock step below N, and a change ordered: its step and the cycle it is complete in (17 R385). -/
  clock : Nat := 0
  clockTo : Option (Nat × Nat) := none
  /-- Fault queue (13 R352): the next sequence number, the entries that wait for their slot, and the next retest. -/
  seq : BitVec 32 := 1
  waiting : List QEntry := []
  retestAt : Nat := 0
  recipes : FMap Recipe := []
  /-- Groups that the die's burnishers took in a cycle: the cycle, and how many in it and in the one before (07 R169). -/
  poolUse : Nat × Nat × Nat := (0, 0, 0)
  /-- Error counters by store kind: corrected and uncorrectable (17 R395). -/
  errors : FMap (Nat × Nat) := []
  deriving DecidableEq, Repr

/-- A live key slot (12 R332). -/
structure KeySlot where
  tenant : Nat
  share : Bool
  pair : BitVec 512
  /-- KEYDROP has begun: the slot refuses new users (12 R335). -/
  dropping : Bool := false
  deriving DecidableEq, Repr

/-- A sheet of a switch, as the switch and the sheet table have it (09 R237 to R246): generation, owner, attributes, mirror, the bytes as their unit's pair shows them, the
pair each unit is kept under where it is not the pair sent at SMALLOC, and whether the switch still holds that pair. -/
structure Sheet where
  gen : BitVec 16 := 1
  live : Bool := false
  retired : Bool := false
  tenant : Nat := 0
  ord : Nat := 0
  perm : Nat := 0
  key : Nat := 0
  mir : Bool := false
  /-- The switch that a mirrored sheet's handle names (09 R239); the other half has no handle of its own. -/
  primary : Nat := 0
  /-- A mirrored sheet that has lost its protection is served by this switch alone (09 R244). -/
  alone : Option Nat := none
  data : Mem := {}
  pair : BitVec 512 := 0
  hasPair : Bool := false
  unitPairs : FMap (BitVec 512) := []
  deriving DecidableEq, Repr

/-- A Pertin switch as this package sees it (09 R238, R246; 13 R367). -/
structure Switch where
  sheets : FMap Sheet := []
  lost : Bool := false
  lossGen : Nat := 0
  portUp : Bool := true
  quota : FMap Nat := []
  /-- Mirrored sheets whose failover from this switch is under way (13 R368). -/
  failover : Bool := false
  deriving DecidableEq, Repr

/-! ### The hub: queue pairs, launches, power -/

/-- A queue pair: tenant, class (0 management, 1 command, 2 data, 3 event), command queue (12 Table 12.5). -/
structure QueuePair where
  tenant : Nat
  cls : Nat
  queue : Nat := 0
  deriving DecidableEq, Repr

/-- A posted launch record and the tenant of the pair that posted it (11 R278, 12 R336). -/
structure Posted where
  record : BitVec 512
  tenant : Nat
  deriving DecidableEq, Repr

/-- A command queue: its records, oldest first, whether the head has passed its check, and its status word (11 R281). -/
structure CommandQueue where
  recs : List Posted := []
  checked : Bool := false
  status : Nat := 0
  deriving DecidableEq, Repr

/-- A launch semaphore (11 R282). -/
structure LaunchSem where
  tenant : Nat := 0
  count : BitVec 32 := 0
  err : Bool := false
  deriving DecidableEq, Repr

/-- An instance of a gathering (11 R288): its index, the members placed and not yet placed, how many are loaded, whether the hub has
released them, and which have ended. -/
structure Inst where
  index : Nat
  die : Option Nat := none
  toPlace : List Nat := []
  placed : List Nat := []
  released : Bool := false
  ended : List Nat := []
  deriving DecidableEq, Repr

/-- A fired launch (11 R283 to R292): its record, image and loop table as read at firing; indices handed out so far and complete;
each die's range; its instances; whether a fenced die has ended it. -/
structure Launch where
  record : BitVec 512
  queue : Nat
  tenant : Nat
  image : List (Byte × Bool) := []
  loops : FMap LoopLevel := []
  members : Nat := 1
  indices : Nat := 1
  handed : Nat := 0
  /-- Lost indices to hand out again (R292). -/
  again : List Nat := []
  ranges : FMap (List Nat) := []
  insts : FMap Inst := []
  aborted : Bool := false
  deriving DecidableEq, Repr

/-- What the package sends out: a reply or a notice on a queue pair, or a message to a neighbour: its kind, whom it is for, its
numbers and its bytes. -/
structure Sent where
  kind : Nat
  dest : Nat
  nums : List Nat := []
  bytes : List Byte := []
  deriving DecidableEq, Repr

/-- A management message that has taken effect and has not replied: its identity, operation, tag, queue pair, arguments, and the
cycle of the hub it arrived in (12 R338). -/
structure Running where
  id : Nat
  opc : Nat
  tag : List Byte
  qp : Nat
  args : List Nat
  since : Nat
  deriving DecidableEq, Repr

/-- The power arbiter (17 R387, R388): limit, limit from the next window, last average in mW, windows in a row below, the largest
request held, and the sensors last read. -/
structure Power where
  limit : Nat := 2400
  nextLimit : Nat := 2400
  average : Nat := 0
  below : Nat := 0
  held : Nat := 0
  sensors : List Nat := []
  deriving DecidableEq, Repr

/-- What package reset keeps: the flash, the fused rollback counter and the burnt index blocks (12 R339, R340), and with them the
running image and the place within the block. -/
structure Boot where
  flash : Mem := {}
  running : Mem := {}
  rollback : Nat := 0
  burnt : Nat := 0
  inBlock : Nat := 1024
  /-- The image checked: false leaves a package that answers FWLOAD and RESET only. -/
  good : Bool := true
  /-- RESETN is asserted. -/
  held : Bool := false
  /-- Bring-up is over: every die has registered, and queue pairs are accepted (17 Table 17.5). -/
  up : Bool := false
  deriving DecidableEq, Repr

/-- A beacon on its way (10 R249): the die it goes to, the link it comes in on, the cycle of the receiver it is present in, the
latency it measures, and what it carries. -/
structure Beacon where
  dest : Nat
  link : Nat
  due : Nat
  lb : Nat
  time : Word
  dist : Nat
  reg : Bool
  keyId : Nat
  stretch : Option (Nat × Nat) := none
  deriving DecidableEq, Repr

/-- What the step does next for the agent in turn: grants of the next cycle's banks, the issue of its tiles from one on, the cycle's
later events, or the clock. -/
inductive Stage where
  | grant
  | issue (tile : Nat)
  | post
  | clock
  deriving DecidableEq, Repr

/-- Who an event or an outside input is about. -/
structure Focus where
  die : Nat := 0
  tile : Nat := 0
  ctx : Nat := 0
  id : Nat := 0
  args : List Nat := []
  deriving DecidableEq, Repr

/-- An event waiting to be taken. -/
structure Job where
  instr : Instr
  focus : Focus
  deriving DecidableEq, Repr

/-- A request of another package under way in this one (12 R334), or of the host by a data pair (12 R337): who asked, where, a write or a
read, the bytes still to be written or read so far, how many are done, and since when it waits. -/
structure Inbound where
  id : Nat
  node : Nat
  host : Bool := false
  segs : List Seg
  write : Bool
  bytes : List (Byte × Bool) := []
  done : Nat := 0
  since : Nat := 0
  granted : Bool := false
  deriving DecidableEq, Repr

/-- A saved context (13 R363): what its image holds, the values of its semaphore range, the tile whose area holds it, the tile it
is to go back to, and the pair its images are encrypted under. -/
structure SavedCtx where
  ctx : Ctx
  num : Nat
  tile : Nat
  back : Nat
  sems : List Sem := []
  pins : List Nat := []
  pair : BitVec 512 := 0
  keySlot : Nat := 0
  parked : Bool := false
  /-- The held command that an UNPARK resumes when the context is back; 0 none (13 R351). -/
  resume : Nat := 0
  /-- Who its tile's claims, pins, weight sets and held commands name while it is saved. -/
  owner : Nat := 0
  deriving DecidableEq, Repr

structure State where
  tiles : FMap Tile := []
  dies : FMap Die := []
  hbm : Mem := {}
  /-- The key pair each written 64-byte unit of HBM is encrypted under (12 R333). -/
  hbmPair : FMap (BitVec 512) := []
  /-- Tenant descriptors, five words each (12 R321). -/
  descs : FMap (List Word) := []
  keys : FMap KeySlot := []
  switches : FMap Switch := []
  hubRanges : FMap RangeEntry := []
  saved : List SavedCtx := []
  mesh : List MeshReq := []
  inbound : List Inbound := []
  air : List Flying := []
  /-- Active phasers: number n of die d at 1,024·d + n, hub phaser n at 4,096 + n (11 R310, R311). -/
  phasers : FMap Phaser := []
  /-- A compaction under way: from tile, to tile (11 R291). -/
  moving : Option (Nat × Nat) := none
  /-- Tiles in scrub, with the cycle of their die in which it is over and their new owner (12 R330). -/
  scrubs : FMap (Nat × Nat) := []
  /-- The die designated key die, when it is in this package, and the torus ports in the registration domain (10 R250). -/
  keyDie : Option Nat := some 0
  regPorts : BitVec 6 := 0
  /-- Torus ports whose far package names the link too, and those that have left the beacon graph (10 R250). -/
  farPorts : BitVec 6 := 0
  apart : BitVec 6 := 0
  /-- Replays of an untimed flit in a row without acknowledgement, by torus port (13 R366). -/
  replays : FMap Nat := []
  /-- Torus ports cabled to the opposite port of the package itself (10 R263). -/
  loopback : BitVec 6 := 0
  beacons : List Beacon := []
  pairs : FMap QueuePair := [(0, ⟨0, 0, 0⟩)]
  queues : FMap CommandQueue := []
  /-- The queue last fired from, by class (11 R283). -/
  lastQueues : FMap Nat := []
  firedAt : Option Nat := none
  lsems : FMap LaunchSem := []
  launches : FMap Launch := []
  master : Nat := 0
  outbox : List Sent := []
  messages : List Job := []
  running : List Running := []
  dropped : Nat := 0
  power : Power := {}
  boot : Boot := {}
  /-- Instances: the tile of each member (11 R287). -/
  places : FMap (FMap Nat) := []
  stage : Stage := .grant
  /-- Whose cycle it is: a compute die, 0 to 3, or the hub, 4. -/
  turn : Fin 5 := 0
  agenda : List Job := []
  inbox : List Job := []
  focus : Focus := {}
  issue : Issue := {}
  free : Nat := 0
  nextId : Nat := 1
  torusX : Nat := 0
  torusY : Nat := 0
  torusZ : Nat := 0
  deriving DecidableEq, Repr

/-- Why a machine stops with a fault. It has no reason: the manual says of every event and of every encoding what follows, a trap
being a next state (13 R342), so no meaning stops. -/
inductive Fault
  deriving DecidableEq, Repr

/-- Why an instruction has no meaning. -/
inductive Refusal where
  /-- An instruction not modelled yet, by its mnemonic: raised by its arm of `exec`; safe. -/
  | notModelled (mnemonic : String)
  deriving DecidableEq, Repr

/-- The machine right after package reset (17 R390, R391; 10 R250): die 0 is the key die, and registered (10 R251). -/
def State.reset : State := { dies := [(0, { registered := true, dist := 0 })] }

end Sys2Proof.Machine
end

