-- ==== Sys2Proof/Machine/Ops.lean ====
section
/-! DEFINITION. The named operations over the state: finding and changing tiles, contexts and dies, reading and writing
registers and memories, judging and committing the bundle in issue, and taking a trap. -/

namespace Sys2Proof.Machine

/-! ### Memories -/

/-- The byte at an address; what nothing has written reads zero (log 2). -/
def Mem.byteAt (m : Mem) (a : Nat) : Byte := FMap.getD m.cells a 0

/-- Whether the byte at an address is poisoned. -/
def Mem.poisonAt (m : Mem) (a : Nat) : Bool := (FMap.get? m.poison a).isSome

/-- Write one byte with its poison tag. -/
def Mem.writeByte (m : Mem) (a : Nat) (b : Byte) (p : Bool) : Mem :=
  { cells := FMap.setD m.cells a b 0
    poison := if p then FMap.insert m.poison a () else FMap.erase m.poison a }

/-- Write bytes with their poison tags from an address up. -/
def Mem.write (m : Mem) : Nat → List (Byte × Bool) → Mem
  | _, [] => m
  | a, (b, p) :: rest => Mem.write (m.writeByte a b p) (a + 1) rest

/-- `n` bytes with their poison tags from an address up. -/
def Mem.read (m : Mem) (a n : Nat) : List (Byte × Bool) :=
  (rangeFrom a n).map fun i => (m.byteAt i, m.poisonAt i)

/-- The canonical form: addresses strictly rise and no listed byte equals what an unlisted address reads as. -/
def Mem.wf (m : Mem) : Bool :=
  FMap.sorted m.cells && m.cells.all (fun c => c.2 != 0) && FMap.sorted m.poison

/-- The value of read bytes, and whether any is poisoned. -/
def bytesVal (l : List (Byte × Bool)) : Nat := ofBytes (l.map (·.1))
def bytesPoison (l : List (Byte × Bool)) : Bool := l.any (·.2)

/-- Bytes of a value, all with one poison tag. -/
def valBytes (n x : Nat) (p : Bool) : List (Byte × Bool) := (toBytes n x).map fun b => (b, p)

/-- The bank of a scratchpad byte (01 R21). -/
def bankOf (a : Nat) : Nat := a / 64 % 32

/-- The banks of a range, each once. -/
def banksOf (a n : Nat) : List Nat :=
  if n = 0 then [] else (rangeFrom (a / 64) ((a + n - 1) / 64 - a / 64 + 1)).map (· % 32) |>.eraseDups

/-! ### Places -/

/-- The die of a tile, and its package row and column (01 R10). -/
def dieOf (t : Nat) : Nat := t / 48
def rowOf (t : Nat) : Nat := dieOf t / 2 * 6 + t % 48 / 8
def colOf (t : Nat) : Nat := dieOf t % 2 * 8 + t % 8

/-- The tile at a package row and column (01 R10). -/
def tileAt (row col : Nat) : Nat := (2 * (row / 6) + col / 8) * 48 + row % 6 * 8 + col % 8

/-- Mesh hops between two tiles, and die crossings on the column-first path (01 R11). -/
def hops (a b : Nat) : Nat := (max (colOf a) (colOf b) - min (colOf a) (colOf b))
  + (max (rowOf a) (rowOf b) - min (rowOf a) (rowOf b))
def crossings (a b : Nat) : Nat :=
  (if colOf a / 8 = colOf b / 8 then 0 else 1) + (if rowOf a / 6 = rowOf b / 6 then 0 else 1)

/-! ### Tiles, contexts, dies -/

/-- A tile as package reset leaves it. -/
def Tile.fresh : Tile := {}
def Ctx.fresh : Ctx := {}
def Die.fresh : Die := {}

def State.tile (s : State) (t : Nat) : Tile := FMap.getD s.tiles t Tile.fresh
def State.setTile (s : State) (t : Nat) (x : Tile) : State := { s with tiles := FMap.insert s.tiles t x }
def State.modTile (s : State) (t : Nat) (f : Tile → Tile) : State := s.setTile t (f (s.tile t))

def Tile.ctx (x : Tile) (c : Nat) : Ctx := FMap.getD x.ctxs c Ctx.fresh
def Tile.setCtx (x : Tile) (c : Nat) (k : Ctx) : Tile := { x with ctxs := FMap.insert x.ctxs c k }
def Tile.live (x : Tile) (c : Nat) : Bool := (FMap.get? x.ctxs c).isSome

def State.ctx (s : State) (t c : Nat) : Ctx := (s.tile t).ctx c
def State.setCtx (s : State) (t c : Nat) (k : Ctx) : State := s.modTile t (fun x => x.setCtx c k)
def State.modCtx (s : State) (t c : Nat) (f : Ctx → Ctx) : State := s.setCtx t c (f (s.ctx t c))

def State.die (s : State) (d : Nat) : Die := FMap.getD s.dies d Die.fresh
def State.modDie (s : State) (d : Nat) (f : Die → Die) : State := { s with dies := FMap.insert s.dies d (f (s.die d)) }

/-- The tile and context of the bundle in issue, and its die's cycle. -/
def State.curTile (s : State) : Tile := s.tile s.issue.tile
def State.cur (s : State) : Ctx := s.ctx s.issue.tile s.issue.ctx
/-- The context as it stood before the bundle: what its operations read (02 R34). -/
def State.pre (s : State) : Ctx :=
  match s.issue.mode with
  | .whole => s.cur
  | _ => s.issue.pre
def State.modCur (s : State) (f : Ctx → Ctx) : State := s.modCtx s.issue.tile s.issue.ctx f
def State.modCurTile (s : State) (f : Tile → Tile) : State := s.modTile s.issue.tile f
def State.tickOf (s : State) (t : Nat) : Nat := (s.die (dieOf t)).tick
def State.now (s : State) : Nat := s.tickOf s.issue.tile
/-- The cycle of the die an event is about. -/
def State.modIssue (s : State) (f : Issue → Issue) : State := { s with issue := f s.issue }

/-- A fresh identity for a command, a landing or a request. -/
def State.bump (s : State) : State := { s with nextId := s.nextId + 1 }

/-- Draw a free value: an unknown number, and the counter advanced (log 3). -/
def State.draw (s : State) : Nat × State := (Config.freeNat s.free, { s with free := s.free + 1 })
/-- A free yes or no of the cycle, for one purpose and one party (log 3). -/
def State.maybe (s : State) (purpose id : Nat) : Bool := Config.freeFor s.free (16 * id + purpose) % 2 == 1
/-- Draw a free choice. -/
def State.flip (s : State) : Bool × State := (Config.freeNat s.free % 2 == 1, { s with free := s.free + 1 })

/-- The package's node ID (01 R22). -/
def State.nodeId (s : State) : Nat := s.torusZ * 2 ^ 14 + s.torusY * 2 ^ 7 + s.torusX

/-! ### Registers of a context -/

/-- s0 reads as zero without poison (05 R115). -/
def Ctx.sreg (k : Ctx) (n : Nat) : SReg := if n = 0 then {} else FMap.getD k.sregs n {}
/-- A write to s0 is discarded (05 R115). -/
def Ctx.setSreg (k : Ctx) (n : Nat) (v : SReg) : Ctx :=
  if n = 0 then k else { k with sregs := FMap.setD k.sregs n v {} }

/-- p0 reads as 1 (05 R115). -/
def Ctx.pred (k : Ctx) (n : Nat) : Bool := n == 0 || k.preds.getLsbD n
/-- A write to p0 is discarded (05 R115). -/
def Ctx.setPred (k : Ctx) (n : Nat) (b : Bool) : Ctx :=
  if n = 0 then k
  else { k with preds := if b then k.preds ||| (1#16 <<< n) else k.preds &&& ~~~(1#16 <<< n) }

/-- Effective number of a vector register (06 R134). -/
def Ctx.veff (k : Ctx) (n : Nat) : Nat := if n < 32 then n else 32 + (n - 32 + k.rbase.toNat) % 32
/-- Effective number of a mask register (06 R134). -/
def Ctx.meff (k : Ctx) (n : Nat) : Nat := if n < 8 then n else 8 + (n - 8 + k.rbase.toNat) % 8

def Ctx.vreg (k : Ctx) (e : Nat) : VReg := FMap.getD k.vregs e VReg.zero
def Ctx.setVreg (k : Ctx) (e : Nat) (v : VReg) : Ctx := { k with vregs := FMap.setD k.vregs e v VReg.zero }
def Ctx.mreg (k : Ctx) (e : Nat) : MaskReg := FMap.getD k.masks e {}
def Ctx.setMreg (k : Ctx) (e : Nat) (v : MaskReg) : Ctx := { k with masks := FMap.setD k.masks e v {} }

/-- y0 reads as zero (11 R298). -/
def Ctx.syncReg (k : Ctx) (n : Nat) : SyncReg := if n = 0 then {} else FMap.getD k.sync n {}
/-- A sync register that neither waits nor signals (11 R298). -/
def SyncReg.inert (y : SyncReg) : Bool := y.thr == 0 && y.inc == 0

/-- Lane l of a register. -/
def VReg.lane (v : VReg) (l : Nat) : LaneVal := v.getD l {}

/-- A context ready to issue: Ready or Running (11 R293). -/
def Ctx.isReady (k : Ctx) : Bool := k.st == .ready

/-! ### Control registers shared by the tile or the die, as a context reads them -/

/-- Key-die time: TICK plus KEYOFF (05 R132). -/
def Die.keyTime (d : Die) : Word := BitVec.ofNat 64 d.tick + d.keyoff

/-! ### The bundle in issue: what its operations read -/

/-- The value selected by a selector: a port's register, zero, or the immediate (02 R33, R34). -/
def State.operand (s : State) (sel : BitVec 3) (imm : Word) : SReg :=
  match sel.toNat with
  | 6 => {}
  | 7 => { val := imm }
  | p => s.cur.sreg ((s.issue.hdr.ports.getD p 0).toNat % 64)

/-- Guard value p[G] ⊕ GN (02 R40). -/
def State.guard (s : State) (g : BitVec 4) (gn : BitVec 1) : Bool := s.cur.pred g.toNat != (gn == 1#1)

/-! ### Plans: what an operation finds and does -/

/-- Phases of 02 R46 in the order they are judged. -/
def phEncoding : Nat := 2
def phPrivilege : Nat := 3
def phGroup : Nat := 4
/-- ALIGN's pause: in the last slot, so after every register group and before the schedule checks (log 20). -/
def phPause : Nat := 4
def phSchedule : Nat := 5
def phOther : Nat := 6
/-- ALIGN's late test: made only when nothing else keeps the bundle from issuing (10 R254; log 20). -/
def phLate : Nat := 7

/-- A failing check as an operation states it: phase, kind, effect. -/
structure Check where
  phase : Nat := phOther
  kind : FailKind
  effect : FailEffect := .none

/-- A result an operation lands: latency, destination, flags. -/
structure Result where
  lat : Nat
  dest : Dest
  flags : Flags := 0

/-- What one operation of a bundle finds and does: its failing checks in order, the results it lands, the scratchpad banks it
uses in cycle 1, and its effect at commit. -/
structure Plan where
  checks : List Check := []
  results : List Result := []
  /-- Results that take free write ports (02 R38). -/
  freeResults : List Result := []
  /-- Results that come back from another tile (09 R234). -/
  farResults : List Result := []
  banks : List Nat := []
  bankAddr : Word := 0
  /-- Scratchpad bank cycles the F slot reserves: bank and cycle (10 R266). -/
  fabBanks : List (Nat × Nat) := []
  act : State → State := id
  target : Option Nat := none
  nonRep : Bool := false
  /-- The access that the operation sends over the mesh. -/
  sends : Option MeshReq := none
  semLeft : Option (Nat × Nat) := none

/-- The plan of an operation that only lands one result. -/
def Plan.lands (lat : Nat) (dest : Dest) (flags : Flags := 0) : Plan := { results := [⟨lat, dest, flags⟩] }

/-- A precise trap as a failing check (13 Table 13.1). -/
def trapCheck (cause : Nat) (addr : Word) (phase : Nat := phOther) (effect : FailEffect := .none) : Check :=
  ⟨phase, .trap .precise cause addr 0, effect⟩

/-- A hold as a failing check (10 Table 10.2). -/
def holdCheck (why : BlockCause) (reason : Nat) (port : Nat := 0) (detail : Nat := 0) (effect : FailEffect := .none)
    (phase : Nat := phOther) : Check :=
  ⟨phase, .hold why reason port detail, effect⟩

/-- A check that fails only when the condition holds. -/
def failIf (c : Bool) (k : Check) : List Check := if c then [k] else []

/-- Of a list of checks in order, only the first that fails: the others are not reached. -/
def firstOf : List (List Check) → List Check
  | [] => []
  | [] :: rest => firstOf rest
  | (k :: _) :: _ => [k]

/-! #### Causes of Table 13.1 -/

def cIllegalCode : Nat := 0x01
def cIllegalEncoding : Nat := 0x02
def cPrivilege : Nat := 0x03
def cRegGroup : Nat := 0x04
def cIllegalSchedule : Nat := 0x05
def cControlValue : Nat := 0x06
def cSingleStep : Nat := 0x07
def cRegionLimit : Nat := 0x08
def cWatchdog : Nat := 0x09
def cTrapInstr : Nat := 0x0A
def cPoison : Nat := 0x10
def cPoisonSync : Nat := 0x11
def cBankConflict : Nat := 0x12
def cBreach : Nat := 0x13
def cAlignment : Nat := 0x14
def cAddressRange : Nat := 0x15
def cGlobalAddress : Nat := 0x16
def cPermission : Nat := 0x17
def cOrderAttr : Nat := 0x18
def cStaleHandle : Nat := 0x19
def cMatrixOperand : Nat := 0x1A
def cCopyOperand : Nat := 0x1B
def cSwitchOperand : Nat := 0x1C
def cBurnishOperand : Nat := 0x1D
def cSemRange : Nat := 0x1E
def cSemError : Nat := 0x1F
def cLoopState : Nat := 0x20
def cCallStack : Nat := 0x21
def cPhaser : Nat := 0x22
def cPhaserOverrun : Nat := 0x23
def cMatrixState : Nat := 0x28
def cBurnishState : Nat := 0x29
def cGatherIndex : Nat := 0x2A
def cUnmapped : Nat := 0x30
def cMalformed : Nat := 0x31
def cCopyOnWrite : Nat := 0x32

/-- TRAPADDR of a schedule breach (10 Table 10.3). -/
def breachAddr (reason port detail : Nat) : Word :=
  BitVec.ofNat 64 (reason * 2 ^ 56 + port * 2 ^ 52 + detail % 2 ^ 48)

/-- A schedule-breach trap as a failing check. -/
def breachCheck (reason : Nat) (port : Nat := 0) (detail : Nat := 0) (effect : FailEffect := .none) : Check :=
  trapCheck cBreach (breachAddr reason port detail) phOther effect

/-! ### Judging -/

/-- The results of a plan as they go into flight. -/
def Plan.landings (p : Plan) (slot now : Nat) : List (Nat × Landing) :=
  let mk := fun (r : Result) => ({ id := 0, due := now + r.lat, dest := r.dest, flags := r.flags } : Landing)
  (p.results.map fun r => (slot, mk r)) ++ (p.freeResults.map fun r => (slot, { mk r with free := true }))
    ++ p.farResults.map fun r => (slot, { mk r with waits := true, nominal := some (now + r.lat) })

/-- Record what an operation finds with the bundle in issue. -/
def recordPlan (p : Plan) (s : State) : State :=
  s.modIssue fun i =>
    { i with
      fails := i.fails ++ p.checks.map fun k => { phase := k.phase, slot := i.slot, kind := k.kind, effect := k.effect }
      lands := i.lands ++ p.landings i.slot s.now
      banks := i.banks ++ p.banks
      fabBanks := i.fabBanks ++ p.fabBanks
      bankAddr := if p.banks.isEmpty then i.bankAddr else p.bankAddr
      semLeft := p.semLeft <|> i.semLeft
      sent := p.sends <|> i.sent }

/-- The register a result lands in, as file and number; a discarded write has none (02 R37). -/
def Dest.key : Dest → Option (Nat × Nat)
  | .scalar n _ => if n = 0 then none else some (0, n)
  | .pred n _ => if n = 0 then none else some (1, n)
  | .mask n _ _ => some (2, n)
  | .vector n _ => some (3, n)
  | .csr _ _ => none

def Dest.isScalar : Dest → Bool
  | .scalar n _ => n != 0
  | _ => false

/-- Results that land in a cycle of their own under exposed latency: late and engine values, and control-register writes, are none of
them. -/
def Landing.exposed (l : Landing) : Bool := !l.free && l.dest.key.isSome

/-- Whether a new result breaks the write-port rule or meets another in its register and cycle (02 R37). -/
def clashes (others : List Landing) (l : Landing) : Bool :=
  l.exposed &&
    ((others.any fun o => o.exposed && o.due == l.due && o.dest.key == l.dest.key) ||
      (l.dest.isScalar && 4 ≤ (others.filter fun o => o.exposed && o.due == l.due && o.dest.isScalar).length))

/-- The R37 checks of the bundle's results, in slot order: of several results that make the excess or meet, the one of the highest slot
is charged (log 86). -/
def portFails : List Landing → List (Nat × Landing) → List Fail
  | _, [] => []
  | others, (slot, l) :: rest =>
    (if clashes others l then [{ phase := phSchedule, slot := slot, kind := .trap .precise cIllegalSchedule 0 0 }] else [])
      ++ portFails (l :: others) rest

/-- The registers held for late values in a cycle: from the nominal landing on, while the value is under way (09 R234). -/
def Ctx.heldAt (k : Ctx) (now : Nat) : List Nat :=
  k.inflight.filterMap fun l =>
    match l.nominal, l.dest with
    | some n, .scalar r _ => if n ≤ now && r != 0 then some r else none
    | _, _ => none

/-- A register held for a late value (09 R234) that the bundle reads or writes. -/
def State.touchesHeld (s : State) : Bool :=
  (s.cur.heldAt s.now).any fun r =>
    (s.issue.hdr.ports.any fun p => p.toNat == 64 + r) || s.issue.td == r ||
    (s.issue.lands.any fun l => l.2.dest.key == some (0, r))

/-- The scratchpad banks that engine accesses use in a cycle: those granted, and those fabric commands reserved (08 R193, 10 R266). -/
def Tile.takenBanks (x : Tile) (cycle : Nat) : List Nat :=
  ((x.granted ++ x.bankRes).filter (fun r => r.2 == cycle)).map (·.1)

/-- A bank that the bundle's own lock holds from cycle 1 on (08 R195). -/
def State.ownLock (s : State) (b : Nat) : Bool := s.issue.hdr.blk && (b == s.issue.hdr.blka.toNat || b == s.issue.hdr.blkb.toNat)

/-- An L-slot access that meets an engine access in its cycle 1 (08 R194). What was granted of a bank that the bundle's own lock takes from
cycle 1 on is given up (R195); what a fabric command has reserved is not. -/
def State.bankFails (s : State) : List Fail :=
  let next := s.now + 1
  let reserved := (s.issue.fabBanks ++ s.curTile.bankRes).filter fun r => r.2 == next
  let granted := s.curTile.granted.filter fun r => r.2 == next && !s.ownLock r.1
  if s.issue.banks.any ((reserved ++ granted).map (·.1)).contains then
    [{ phase := phOther, slot := 3, kind := .trap .precise cBankConflict s.issue.bankAddr 0 }]
  else []

/-- A bundle with BLK whose own F command needs a bank of the lock while the lock may last (10 R266; log 86). -/
def State.lockFails (s : State) : List Fail :=
  if s.issue.fabBanks.any fun r => s.ownLock r.1 && s.now < r.2 && r.2 ≤ s.now + 1 + 2 * s.issue.hdr.blkn.toNat then
    [{ phase := phOther, slot := 0, kind := .trap .precise cIllegalSchedule 0 0 }]
  else []

/-- An access that the bundle of a FENCE sent over the mesh is not performed yet: later bundles wait for it (08 R210). -/
def State.fenceFails (s : State) : List Fail :=
  match s.cur.fenceOver with
  | some n =>
    if s.mesh.any fun r => r.tile == s.issue.tile && r.ctx == s.issue.ctx && r.id < n then
      [{ phase := phOther, slot := 0, kind := .hold .watermark 4 0 0 }]
    else []
  | none => []

/-- Every failed check of the bundle. -/
def State.allFails (s : State) : List Fail :=
  s.issue.fails ++ s.fenceFails
    ++ (if s.touchesHeld then [{ phase := phSchedule, slot := 0, kind := .hold .matrixBusy 2 0 0 : Fail }] else [])
    ++ portFails s.cur.inflight s.issue.lands ++ s.bankFails ++ s.lockFails

/-- The earlier of two failures: the earlier phase, then the lower slot (02 R46). -/
def Fail.before (a b : Fail) : Bool := a.phase < b.phase || (a.phase == b.phase && a.slot < b.slot)

/-- The first failure (02 R46). -/
def firstFail : List Fail → Option Fail
  | [] => none
  | f :: rest =>
    match firstFail rest with
    | none => some f
    | some g => if g.before f then some g else some f

/-! ### Taking a trap (13 R342 to R345) -/

/-- The context's exposed and held results in flight (13 R345). -/
def Ctx.draining (k : Ctx) : Bool := !k.inflight.isEmpty

/-- The bank lock of a context ends; the hold goes on through `last` (08 R195). -/
def Tile.endLock (x : Tile) (c : Nat) (last : Nat) : Tile :=
  match x.lock with
  | some l => if l.ctx = c then { x with lock := some { l with ending := some last } } else x
  | none => x

/-- A trap of a context is raised: it stops issue at once, ends its fixed-time region and bank lock, and waits for the
results in flight to land (13 R345). TRAP_ENTRY does the rest. A PC that has run past the code store is kept as its 17 bits from here
on (log 77). -/
def raiseTrap (t c : Nat) (r : TrapRecord) (s : State) : State :=
  let now := s.tickOf t
  let s := s.modTile t fun x => x.endLock c now
  s.modCtx t c fun k =>
    { k with
      st := .trapping
      pendingTrap := some (r, now)
      pcOver := false
      walks := []
      pendingStep := k.pendingStep && r.cause != 7
      infl := k.inflight.countP fun l => l.dest.key.isSome
      inFtr := false
      ftrPorts := []
      lockLeft := none
      literalPaid := false }

/-- Walks a context waits for, one more when it is not among them (09 R217). -/
def Ctx.addWalk (k : Ctx) (code : Nat) : Ctx :=
  let w : WalkReq := { space := code / 2 ^ 40, off := code % 2 ^ 40 }
  if k.walks.any fun x => x.space == w.space && x.off / 4096 == w.off / 4096 then k else { k with walks := k.walks ++ [w] }

/-- X commands that make their region non-repeatable once they are accepted (09 R218, 07 R180). -/
def XOp.nonRepeatable : XOp → Bool
  | .smatom _ | .smalloc | .smfree | .layreg | .laydrop | .burnish | .recipe => true
  | _ => false

/-- A die runs at step N, and no change of its step is under way (17 R385, R386). -/
def Die.nominal (x : Die) : Bool := x.clock == 0 && x.clockTo.isNone

/-- The effect a failing check of a context's bundle has of its own. -/
def applyEffect (t c : Nat) (e : FailEffect) (s : State) : State :=
  match e with
  | .none => s
  | .clearSemErr i => s.modTile t fun x => { x with sems := FMap.setD x.sems i { (FMap.getD x.sems i {}) with err := false } {} }
  | .clearPhaserOverrun n =>
    s.modCtx t c fun x => { x with phslots := x.phslots.map fun e => if e.1 = n then (e.1, { e.2 with overrun := false }) else e }
  | .clearFifoOverrun p => s.modTile t fun x => { x with overruns := FMap.erase x.overruns p }
  | .startWalks l => s.modCtx t c fun k => l.foldl Ctx.addWalk k
  | .farDepart target row col op data way =>
    let r : MeshReq :=
      { id := s.nextId, tile := t, ctx := c, lat := 1, target := target, row := row, col := col, op := op, data := data
        arrive := s.tickOf t + 1 + way, way := way, far := true }
    ({ s with mesh := s.mesh ++ [r] } : State).bump.modCtx t c fun k => { k with farAcq := some { id := r.id, pc := k.pc } }
  | .farOver =>
    let id := match (s.ctx t c).farAcq with | some q => q.id | none => 0
    (s.modTile t fun x => { x with xq := x.xq.filter fun y => y.head.id != id }).modCtx t c fun k => { k with farAcq := none }
  | .nominal =>
    s.modDie (dieOf t) fun x =>
      if x.nominal || (match x.clockTo with | some p => p.1 == 0 | none => false) then x else { x with clockTo := some (0, x.tick + 200) }
  | .farAccept cmd =>
    let id := s.nextId
    let cmd := { cmd with head := { cmd.head with id := id } }
    (s.bump.modTile t fun x => { x with xq := x.xq ++ [cmd] }).modCtx t c fun k =>
      { k with farAcq := some { id := id, pc := k.pc }, nonRepeatable := k.nonRepeatable || cmd.op.nonRepeatable }

/-- The trap of the bundle in issue. -/
def trapNow (slot : Nat) (kind : TrapKind) (cause : Nat) (addr : Word) (level : Nat) (s : State) : State :=
  raiseTrap s.issue.tile s.issue.ctx
    { kind := kind, cause := BitVec.ofNat 8 cause, pc := s.issue.pc, slot := BitVec.ofNat 4 slot, addr := addr,
      ret := s.issue.pc, level := BitVec.ofNat 2 level } s

/-- What a failed check does to its context: a trap, a block, a pause. Under a bank lock a bundle that would not issue is an
illegal schedule (08 R195); inside a fixed-time region a hold is a breach (10 R261). -/
def takeFail (f : Fail) (s : State) : State :=
  let locked := s.cur.lockLeft.isSome
  match f.kind with
  | .trap kind cause addr level => trapNow f.slot kind cause addr level (applyEffect s.issue.tile s.issue.ctx f.effect s)
  | .hold why reason port detail =>
    if locked then trapNow f.slot .precise cIllegalSchedule 0 0 s
    else if s.cur.inFtr then trapNow f.slot .precise cBreach (breachAddr reason port detail) 0 s
    else (applyEffect s.issue.tile s.issue.ctx f.effect s).modCur fun k => { k with st := .blocked why }
  | .pause => if locked then trapNow f.slot .precise cIllegalSchedule 0 0 s else (applyEffect s.issue.tile s.issue.ctx f.effect s).modCur fun k => { k with st := .paused }

/-! ### Committing -/

/-- The effect of one operation at commit. -/
def commitPlan (p : Plan) (s : State) : State :=
  (p.act s).modIssue fun i => { i with target := p.target <|> i.target, nonRep := i.nonRep || p.nonRep }

/-- Give the bundle's results their identities and put them in flight (05 R118); one that waits for its request bears the
request's. -/
def addLandings : List (Nat × Landing) → State → State
  | [], s => s
  | (_, l) :: rest, s =>
    let i := s.nextId
    addLandings rest (s.bump.modCur fun k => { k with inflight := k.inflight ++ [if l.waits then l else { l with id := i }] })

/-- A vector register bound for a result is present (06 R138). -/
def Ctx.present (k : Ctx) : Ctx :=
  { k with absent := k.absent.filter fun r => !(k.inflight.any fun l => l.dest.key == some (3, r)) }

/-- A bundle under a lock counts down its hold, which lasts through cycle 1 of the last one (02 R32, 08 R195). CTXCFG.INLOCK reads 0
from the last locked bundle's commit on (log 80). -/
def countLock (s : State) : State :=
  match s.cur.lockLeft with
  | none => s
  | some n =>
    if s.issue.hdr.blk then s
    else if n ≤ 1 then
      (s.modCurTile fun x => x.endLock s.issue.ctx (s.now + 1)).modCur fun k => { k with lockLeft := none }
    else s.modCur fun k => { k with lockLeft := some (n - 1) }

/-- The tile's selector records that a context held issue in this cycle (11 R294). -/
def Tile.tookIssue (x : Tile) (c now : Nat) : Tile :=
  let again := x.lastCtx == c && x.heldAt == some (now - 1) && 0 < now
  { x with lastCtx := c, heldAt := some now, tookAt := if again then x.tookAt else now,
           yielded := false, trapEntrySwitch := false }

/-- The bundle has committed: its results are in flight, the macro PC goes on, and the context's counts follow. -/
def finishBundle (s : State) : State :=
  let next := s.issue.target.getD s.issue.nextPc
  let s := addLandings s.issue.lands s
  let s := s.modCur fun k =>
    { k.present with
      pc := BitVec.ofNat 17 next
      pcOver := 2 ^ 17 ≤ next
      literalPaid := false
      walks := []
      blockedFor := 0
      nonRepeatable := k.nonRepeatable || s.issue.nonRep
      pendingStep := if s.issue.trapOpen then k.pendingStep else k.sstep }
  countLock s

/-- The verdict on the bundle in issue: trap, block or pause on its first failure, else commit what `act` does and finish. -/
def settle (act : State → State) (s : State) : State :=
  match firstFail s.allFails with
  | some f => takeFail f s
  | none => finishBundle (act s)

/-- One operation of the bundle in issue: judged, committed, or both for a bundle of one. -/
def issueOp (p : State → Plan) (s : State) : Host.Outcome State Fault Refusal :=
  match s.issue.mode with
  | .judge => .next (recordPlan (p s) s)
  | .commit => .next (commitPlan (p s) s)
  | .whole =>
    let q := p s
    .next (settle (commitPlan q) (recordPlan q s))

end Sys2Proof.Machine
end

