-- ==== Sys2Proof/Machine/Operands.lean ====
section
/-! DEFINITION. Operand forms: which registers an operation names as destinations and as vector groups, the bundle checks over
them (02 R36, R46 phase 4; 06 R135, R136), and the operands each slot layout selects. -/

namespace Sys2Proof.Machine

/-- A register as an instruction names it: scalar, vector, mask, predicate, control register. -/
inductive RegName where
  | s (n : Nat)
  | v (n : Nat)
  | m (n : Nat)
  | p (n : Nat)
  | csr (n : Nat)
  deriving DecidableEq, Repr

def RegName.isScalar : RegName → Bool
  | .s _ => true
  | _ => false

/-- The scalars a destination field names; s0 counts as none (R36). -/
def sDest (d : BitVec 6) : List RegName := if d = 0#6 then [] else [.s d.toNat]

/-- The destinations of an operation (R36, R113, R305). -/
def dests : Instr → List RegName
  | .add f => sDest f.d
  | .sub f => sDest f.d
  | .and f => sDest f.d
  | .or f => sDest f.d
  | .xor f => sDest f.d
  | .andn f => sDest f.d
  | .orn f => sDest f.d
  | .xnor f => sDest f.d
  | .shl f => sDest f.d
  | .shr f => sDest f.d
  | .sar f => sDest f.d
  | .rol f => sDest f.d
  | .ror f => sDest f.d
  | .shadd f => sDest f.d
  | .abs f => sDest f.d
  | .mul f => sDest f.d
  | .mulhI f => sDest f.d
  | .mulhN f => sDest f.d
  | .mulhIn f => sDest f.d
  | .mulwI f => sDest f.d ++ [.s (f.d.toNat + 1)]
  | .mulwN f => sDest f.d ++ [.s (f.d.toNat + 1)]
  | .divI f => sDest f.d
  | .divN f => sDest f.d
  | .remI f => sDest f.d
  | .remN f => sDest f.d
  | .minI f => sDest f.d
  | .minN f => sDest f.d
  | .maxI f => sDest f.d
  | .maxN f => sDest f.d
  | .addsI f => sDest f.d
  | .addsN f => sDest f.d
  | .subsI f => sDest f.d
  | .subsN f => sDest f.d
  | .clz f => sDest f.d
  | .ctz f => sDest f.d
  | .popc f => sDest f.d
  | .brev f => sDest f.d
  | .extrI f => sDest f.d
  | .extrN f => sDest f.d
  | .insr f => sDest f.d
  | .sextI8 f => sDest f.d
  | .sextI16 f => sDest f.d
  | .sextI32 f => sDest f.d
  | .cmpEq f => [.p f.d.toNat]
  | .cmpNe f => [.p f.d.toNat]
  | .cmpLtI f => [.p f.d.toNat]
  | .cmpLeI f => [.p f.d.toNat]
  | .cmpGtI f => [.p f.d.toNat]
  | .cmpGeI f => [.p f.d.toNat]
  | .cmpLtN f => [.p f.d.toNat]
  | .cmpLeN f => [.p f.d.toNat]
  | .cmpGtN f => [.p f.d.toNat]
  | .cmpGeN f => [.p f.d.toNat]
  | .tstAny f => [.p f.d.toNat]
  | .tstNone f => [.p f.d.toNat]
  | .sel f => sDest f.d
  | .movz f => sDest f.d
  | .movk f => sDest f.d
  | .movn f => sDest f.d
  | .pand f => [.p f.d.toNat]
  | .por f => [.p f.d.toNat]
  | .pxor f => [.p f.d.toNat]
  | .pandn f => [.p f.d.toNat]
  | .pmovs f => sDest f.d
  | .smovp f => [.p f.d.toNat]
  | .csrr f => sDest f.d
  | .csrw f => sDest f.d ++ [.csr f.imm.toNat]
  | .csrs f => sDest f.d ++ [.csr f.imm.toNat]
  | .csrc f => sDest f.d ++ [.csr f.imm.toNat]
  | .ktime f => sDest f.d
  | .ldI8 f => sDest f.t
  | .ldN8 f => sDest f.t
  | .ldI16 f => sDest f.t
  | .ldN16 f => sDest f.t
  | .ldI32 f => sDest f.t
  | .ldN32 f => sDest f.t
  | .ld64 f => sDest f.t
  | .ldN32Acq f => sDest f.t
  | .ld64Acq f => sDest f.t
  | .lda f => sDest f.t
  | .ldaAcq f => sDest f.t
  | .aadd f => sDest f.t
  | .aaddAcq f => sDest f.t
  | .aaddRel f => sDest f.t
  | .aaddAr f => sDest f.t
  | .aswp f => sDest f.t
  | .aswpAcq f => sDest f.t
  | .aswpRel f => sDest f.t
  | .aswpAr f => sDest f.t
  | .vld f => [.v f.t.toNat]
  | .vlds f => [.v f.t.toNat]
  | .vaddF32 f => [.v (f.vd.toNat)]
  | .vaddF16 f => [.v (f.vd.toNat)]
  | .vaddBf16 f => [.v (f.vd.toNat)]
  | .vaddI32 f => [.v (f.vd.toNat)]
  | .vaddI16 f => [.v (f.vd.toNat)]
  | .vaddI8 f => [.v (f.vd.toNat)]
  | .vsubF32 f => [.v (f.vd.toNat)]
  | .vsubF16 f => [.v (f.vd.toNat)]
  | .vsubBf16 f => [.v (f.vd.toNat)]
  | .vsubI32 f => [.v (f.vd.toNat)]
  | .vsubI16 f => [.v (f.vd.toNat)]
  | .vsubI8 f => [.v (f.vd.toNat)]
  | .vmulF32 f => [.v (f.vd.toNat)]
  | .vmulF16 f => [.v (f.vd.toNat)]
  | .vmulBf16 f => [.v (f.vd.toNat)]
  | .vmulI32 f => [.v (f.vd.toNat)]
  | .vmulI16 f => [.v (f.vd.toNat)]
  | .vfmaF32 f => [.v (f.vd.toNat)]
  | .vfmaF16 f => [.v (f.vd.toNat)]
  | .vfmaBf16 f => [.v (f.vd.toNat)]
  | .vminF32 f => [.v (f.vd.toNat)]
  | .vminF16 f => [.v (f.vd.toNat)]
  | .vminBf16 f => [.v (f.vd.toNat)]
  | .vminI32 f => [.v (f.vd.toNat)]
  | .vmaxF32 f => [.v (f.vd.toNat)]
  | .vmaxF16 f => [.v (f.vd.toNat)]
  | .vmaxBf16 f => [.v (f.vd.toNat)]
  | .vmaxI32 f => [.v (f.vd.toNat)]
  | .vaddsI32 f => [.v (f.vd.toNat)]
  | .vaddsI16 f => [.v (f.vd.toNat)]
  | .vaddsI8 f => [.v (f.vd.toNat)]
  | .vaddsN8 f => [.v (f.vd.toNat)]
  | .vsubsI32 f => [.v (f.vd.toNat)]
  | .vsubsI16 f => [.v (f.vd.toNat)]
  | .vsubsI8 f => [.v (f.vd.toNat)]
  | .vsubsN8 f => [.v (f.vd.toNat)]
  | .vmulhI32 f => [.v (f.vd.toNat)]
  | .vmulhN32 f => [.v (f.vd.toNat)]
  | .vabsF32 f => [.v (f.vd.toNat)]
  | .vabsI32 f => [.v (f.vd.toNat)]
  | .vnegF32 f => [.v (f.vd.toNat)]
  | .vnegI32 f => [.v (f.vd.toNat)]
  | .vrcp f => [.v (f.vd.toNat)]
  | .vrsq f => [.v (f.vd.toNat)]
  | .vexp2 f => [.v (f.vd.toNat)]
  | .vlog2 f => [.v (f.vd.toNat)]
  | .vsqrt f => [.v (f.vd.toNat)]
  | .vand f => [.v (f.vd.toNat)]
  | .vor f => [.v (f.vd.toNat)]
  | .vxor f => [.v (f.vd.toNat)]
  | .vandn f => [.v (f.vd.toNat)]
  | .vshl f => [.v (f.vd.toNat)]
  | .vshr f => [.v (f.vd.toNat)]
  | .vsar f => [.v (f.vd.toNat)]
  | .vclz f => [.v (f.vd.toNat)]
  | .vpopc f => [.v (f.vd.toNat)]
  | .vcmpF32Eq f => [.m f.vd.toNat]
  | .vcmpF32Ne f => [.m f.vd.toNat]
  | .vcmpF32Lt f => [.m f.vd.toNat]
  | .vcmpF32Le f => [.m f.vd.toNat]
  | .vcmpF32Un f => [.m f.vd.toNat]
  | .vcmpI32Eq f => [.m f.vd.toNat]
  | .vcmpI32Ne f => [.m f.vd.toNat]
  | .vcmpI32Lt f => [.m f.vd.toNat]
  | .vcmpI32Le f => [.m f.vd.toNat]
  | .vcmpN32Lt f => [.m f.vd.toNat]
  | .vcmpN32Le f => [.m f.vd.toNat]
  | .vsel f => [.v (f.vd.toNat)]
  | .mand f => [.m f.vd.toNat]
  | .mor f => [.m f.vd.toNat]
  | .mxor f => [.m f.vd.toNat]
  | .mandn f => [.m f.vd.toNat]
  | .mtos f => sDest f.sd
  | .stom f => [.m f.vd.toNat]
  | .vraddF32 f => sDest f.sd
  | .vraddI32 f => sDest f.sd
  | .vrmaxF32 f => sDest f.sd
  | .vrmaxI32 f => sDest f.sd
  | .vrminF32 f => sDest f.sd
  | .vrminI32 f => sDest f.sd
  | .vperm f => [.v (f.vd.toNat)]
  | .vrot f => [.v (f.vd.toNat)]
  | .vbcast f => [.v (f.vd.toNat)]
  | .vext f => sDest f.sd
  | .vins f => [.v (f.vd.toNat)]
  | .vmov f => [.v (f.vd.toNat)]
  | .vmovi f => [.v (f.vd.toNat)]
  | .vcvtF16F32 f => [.v (f.vd.toNat)]
  | .vcvtBf16F32 f => [.v (f.vd.toNat)]
  | .vcvtF32F16 f => [.v (f.vd.toNat)]
  | .vcvtF32Bf16 f => [.v (f.vd.toNat)]
  | .vcvtI32F32 f => [.v (f.vd.toNat)]
  | .vcvtN32F32 f => [.v (f.vd.toNat)]
  | .vcvtF32I32 f => [.v (f.vd.toNat)]
  | .vcvtF32N32 f => [.v (f.vd.toNat)]
  | .vtologLb8 f => [.v (f.vd.toNat)]
  | .vtologLb6 f => [.v (f.vd.toNat)]
  | .vtologLb4 f => [.v (f.vd.toNat)]
  | .vtologLm16 f => [.v (f.vd.toNat)]
  | .vfromlogLb8 f => [.v (f.vd.toNat)]
  | .vfromlogLb6 f => [.v (f.vd.toNat)]
  | .vfromlogLb4 f => [.v (f.vd.toNat)]
  | .vfromlogLm16 f => [.v (f.vd.toNat)]
  | .vbpackLb8 f => [.v (f.vd.toNat)]
  | .vbpackLb6 f => [.v (f.vd.toNat)]
  | .vbpackLb4 f => [.v (f.vd.toNat)]
  | .vbunpLb8 f => [.v (f.vd.toNat)]
  | .vbunpLb6 f => [.v (f.vd.toNat)]
  | .vbunpLb4 f => [.v (f.vd.toNat)]
  | .vtordwF32 f => [.v (f.vd.toNat), .v (f.vd.toNat + 1), .v (f.vd.toNat + 2)]
  | .vtordwA64 f => [.v (f.vd.toNat), .v (f.vd.toNat + 1), .v (f.vd.toNat + 2)]
  | .vfromrdwF32 f => [.v (f.vd.toNat)]
  | .vfromrdwA64 f => [.v (f.vd.toNat), .v (f.vd.toNat + 1)]
  | .vaddrdw f => [.v (f.vd.toNat), .v (f.vd.toNat + 1), .v (f.vd.toNat + 2)]
  | .vcvtaF32 f => [.v (f.vd.toNat), .v (f.vd.toNat + 1)]
  | .vcvtaA64 f => [.v (f.vd.toNat)]
  | .fmtsel _ => [.csr 0x010]
  | .layreg f => sDest f.td
  | .smalloc f => sDest f.td
  | .smfree f => sDest f.td
  | .smquery f => sDest f.td
  | .smld f => sDest f.td
  | .smldAcq f => sDest f.td
  | .smatomAdd f => sDest f.td
  | .smatomSwap f => sDest f.td
  | .smatomCas f => sDest f.td
  | .smatomMinI f => sDest f.td
  | .smatomMaxI f => sDest f.td
  | .smatomMinN f => sDest f.td
  | .smatomMaxN f => sDest f.td
  | .recvaddReg f => [.v f.n.toNat, .v (f.n.toNat + 1), .v (f.n.toNat + 2)]
  | .lend _ => [.csr 0x002]
  | _ => []

/-- A vector register group an operation names: its first register and its size (Table 6.1). A 128-bit scalar pair is
checked in the same phase (05 R116). -/
inductive GroupUse where
  | vec (first size : Nat)
  | pair (d : Nat)
  deriving DecidableEq, Repr

/-- The registers a group has in the architectural numbering. -/
def GroupUse.members : GroupUse → List Nat
  | .vec first size => rangeFrom first size
  | .pair _ => []

/-- First register of a group aligned: pairs on even numbers, triples on multiples of 4 (R136, R116). -/
def GroupUse.aligned : GroupUse → Bool
  | .vec first size => if size = 2 then first % 2 == 0 else if size = 3 then first % 4 == 0 else true
  | .pair d => d % 2 == 0

/-- The failing register of a group, if any (R135, R136): the first register of a misaligned group, else the first member
whose effective number is not below VALLOC. -/
def GroupUse.failing (k : Ctx) (g : GroupUse) : Option Nat :=
  if !g.aligned then
    match g with
    | .vec first _ => some first
    | .pair d => some d
  else g.members.find? fun n => k.valloc.toNat ≤ k.veff n || 64 ≤ n

/-- Phase 4 for the groups one operation names, in the order destination, VA, VB, VC (R46, R135). -/
def groupChecks (k : Ctx) (gs : List GroupUse) : List Check :=
  match gs.filterMap (GroupUse.failing k) with
  | [] => []
  | n :: _ => [trapCheck cRegGroup (BitVec.ofNat 64 n) phGroup]

/-- An absent register named by an operation holds the bundle (06 R138). -/
def absentChecks (k : Ctx) (gs : List GroupUse) : List Check :=
  failIf (gs.any fun g => g.members.any fun n => k.absent.contains (k.veff n))
    (holdCheck .registerFill 0 0 0 .none phSchedule)

/-- A plan with the register-group checks before its own (R46). -/
def Plan.withGroups (k : Ctx) (gs : List GroupUse) (p : Plan) : Plan :=
  { p with checks := groupChecks k gs ++ absentChecks k gs ++ p.checks }

/-! ### Destinations of a bundle (R36) -/

/-- Whether any of the registers is named already. -/
def sharesDest (seen new : List RegName) : Bool := new.any fun r => seen.contains r

/-- The slot at which the destinations of a bundle break R36, if they do: two slots name one register, or S0, S1, L and V name
more than four scalars. Of the slots at fault the highest is charged (log 86). -/
def destClash : List RegName → List (Nat × Instr) → Option Nat
  | _, [] => none
  | seen, (slot, i) :: rest =>
    let d := dests i
    let all := d ++ seen
    if sharesDest seen d || (slot ≤ 4 && 4 < (all.filter RegName.isScalar).length) then some slot
    else destClash all rest

/-! ### Operands of the slot layouts -/

/-- Operand a or b of an S form: selector 7 is SignExtend(IMM16, 16) (05 R121). -/
def State.sOp (s : State) (f : SSlot) (sel : BitVec 3) : SReg := s.operand sel (f.imm.signExtend 64)

/-- A scalar operand of a V form: selector 7 is SignExtend(IMM13, 13) (06 R139). -/
def State.vOp (s : State) (f : VSlot) : SReg := s.operand f.ss (f.imm.signExtend 64)

/-- An operand of a slot that has no immediate (R33). -/
def State.plainOp (s : State) (sel : BitVec 3) : SReg := s.operand sel 0

/-- An operand of a C-R form with an immediate (R33, R301). -/
def State.cOp (s : State) (f : CSlot) (sel : BitVec 3) : SReg := s.operand sel (f.imm.signExtend 64)

/-- A plan that has no effect when the slot's guard is false (R40). The group checks are made all the same (R46; log 23). -/
def guarded (s : State) (g : BitVec 4) (gn : BitVec 1) (gs : List GroupUse) (p : Plan) : Plan :=
  Plan.withGroups s.cur gs (if s.guard g gn then p else {})

end Sys2Proof.Machine
end

