-- ==== Sys2Proof/Machine/Issue.lean ====
section
/-! DEFINITION. Fetch, decoding and the selector: what a context would issue next (02 R24 to R47, 01 R17), which context of a
tile issues (11 R294), the header operations and the NOPs, and the traps raised in place of a bundle (10 R259, 11 R296, 13 R358). -/

namespace Sys2Proof.Machine

/-! ### Fetch (R24 to R28) -/

/-- What stands at a macro PC: a bundle's bits with the next macro PC, or the failed check of phase 1. -/
inductive Fetched where
  | bundle (w : Nat) (next : Nat) (literal : Bool)
  | fails (k : Check)

def illegalCode (addr : Nat) : Fetched := .fails (trapCheck cIllegalCode (BitVec.ofNat 64 addr) 1)

/-- Halfword of the code store. -/
def Tile.codeWord (x : Tile) (a : Nat) : Nat := (FMap.getD x.code a 0).toNat

/-- The bits of a literal bundle: halfword a + 1 + i holds bits [16i+15:16i] (R24). -/
def Tile.literal (x : Tile) (a : Nat) : Nat :=
  (List.range 24).foldl (fun w i => w + x.codeWord (a + 1 + i) * 2 ^ (16 * i)) 0

/-- Fetch at a context's macro PC (R17, R24 to R26). Past the last halfword the trap records 2^17 plus the 17-bit PC, and a poisoned
word, literal or entry records the macro PC: the manual gives neither address (log 77). -/
def fetch (x : Tile) (k : Ctx) : Fetched :=
  let a := k.pc.toNat
  let bad := Fetched.fails (trapCheck cPoison (BitVec.ofNat 64 a) 1)
  if k.pcOver then illegalCode (2 ^ 17 + a)
  else if (FMap.get? x.codeBad a).isSome then bad
  else
    let w := x.codeWord a
    if w < 0xFFF0 then
      if k.dictlen.toNat ≤ w then illegalCode w
      else
        let e := k.dictbase.toNat + w
        if (FMap.get? x.dictBad e).isSome then bad
        else .bundle (FMap.getD x.dict e 0).toNat (a + 1) false
    else if w != 0xFFFF || 0x1FFFF < a + 24 then illegalCode w
    else if (rangeFrom (a + 1) 24).any fun i => (FMap.get? x.codeBad i).isSome then bad
    else .bundle (x.literal a) (a + 25) true

/-! ### Decoding (R46 phase 2) -/

/-- A selector names a disabled port (R35). -/
def namesDisabled (h : Header) (i : Instr) : Bool :=
  i.selectors.any fun p => p.toNat < 6 && (h.ports.getD p.toNat 0).toNat / 64 != 1

/-- A slot as decoded. -/
structure Op where
  slot : Nat
  instr : Instr
  word : Nat
  deriving DecidableEq, Repr

def isNop : Instr → Bool
  | .nop | .nopF | .nopC => true
  | _ => false

/-- A form that stands alone in its bundle: every other slot NOP and a header of zero (13 R348). -/
def standsAlone : Instr → Bool
  | .trap _ => true
  | _ => false

/-- A far acquire of the X slot: every other slot NOP, and RGN and BLK zero (09 R235). -/
def isFarX : Instr → Bool
  | .smldAcq _ => true
  | .smatomAdd f | .smatomSwap f | .smatomCas f | .smatomMinI f | .smatomMaxI f | .smatomMinN f | .smatomMaxN f => f.ord.getLsbD 0
  | _ => false

/-- An illegal encoding of a slot: TRAPADDR holds the slot's bits, or the header for slot 0. -/
def encodingFail (slot word : Nat) : Fail :=
  { phase := phEncoding, slot := slot, kind := .trap .precise cIllegalEncoding (BitVec.ofNat 64 word) 0 }

/-- The bits an illegal encoding records. -/
def encodingWord (f : Fail) : Nat :=
  match f.kind with
  | .trap _ _ addr _ => addr.toNat
  | _ => 0

/-- The operations of a bundle's slots in slot order, or its first illegal encoding within each slot (R35, R47). -/
noncomputable def decodeSlots (h : Header) (w : Nat) : List SlotPlace → List Op × List Fail
  | [] => ([], [])
  | p :: ps =>
    let (ops, fails) := decodeSlots h w ps
    let word := p.word w
    match decodeSlot p.kind word with
    | .error _ => (ops, encodingFail p.num word :: fails)
    | .ok i => if namesDisabled h i then (ops, encodingFail p.num word :: fails) else (⟨p.num, i, word⟩ :: ops, fails)

/-- Phase 2 for a bundle: the header first, then the slots, then the rules over the whole bundle (R30, R36, R348). -/
noncomputable def decodeBundle (w : Nat) : List Op × List Fail :=
  let hw := w % 2 ^ 64
  let h := Header.ofWord hw
  let (ops, fails) := decodeSlots h w slotPlaces
  let hdr := if h.wf then [] else [encodingFail 0 hw]
  let clash :=
    match destClash [] (ops.map fun o => (o.slot, o.instr)) with
    | some n => (ops.filter fun o => o.slot == n).map fun o => encodingFail n o.word
    | none => []
  let others := fun (o : Op) => ops.any fun p => p.slot != o.slot && !isNop p.instr
  let alone :=
    (ops.filter fun o => (standsAlone o.instr && (hw != 0 || others o)) || (isFarX o.instr && (h.rgn || h.blk || others o))).map
      fun o => encodingFail o.slot o.word
  (ops, hdr ++ fails ++ clash ++ alone)

/-- A form whose row depends on an operand: BURNISH by the MODE of its control word, UNPARK by its action (07 R174, 13 R351). -/
noncomputable def resolve (s : State) (i : Instr) : Instr :=
  match i with
  | .burnishUpdate f => if bits (s.plainOp f.sd).val.toNat 63 62 = 1 then .burnishRecipeLoad f else i
  | .unparkReturn f =>
    match bits (s.cOp f f.sb).val.toNat 1 0 with
    | 0 => i
    | 1 => .unparkResume f
    | 2 => .unparkRedirect f
    | _ => .unparkEnd f
  | _ => i

/-- The operations in the order they are judged and committed: header operations, S0, S1, L, V, C, M, X, F (R50, log 20). -/
def issueOrder (h : Header) (ops : List Op) : List Op :=
  let hdr := (if h.rgn then [⟨0, .regionOpen, 0⟩] else []) ++ (if h.blk then [⟨0, .bankLock, 0⟩] else [])
  let real := ops.filter fun o => !isNop o.instr
  let all := hdr ++ real.filter (fun o => o.slot ≤ 4) ++ real.filter (fun o => o.slot == 8)
    ++ real.filter (fun o => 5 ≤ o.slot && o.slot ≤ 7)
  if all.isEmpty then (ops.filter fun o => o.slot == 1 || 7 ≤ o.slot) else all

/-! ### What a context would issue -/

/-- The verdict on a context in a cycle. -/
inductive Attempt where
  /-- It takes no part in the selection. -/
  | none
  /-- It takes issue and takes the single-step trap before its bundle is fetched. -/
  | fails (f : Fail)
  /-- An event in place of its bundle, with what it needs to know. -/
  | event (i : Instr) (args : List Nat)
  /-- The first of the two cycles of a literal (R28). -/
  | literal
  /-- Its operations are judged. -/
  | run (is : Issue) (ops : List Op)

/-- Contexts that the selector looks at (R293): not under an urgent request, not being moved. -/
def Ctx.stands (k : Ctx) : Bool :=
  match k.st with
  | .ready | .blocked _ | .paused => (match k.preempt with | some p => !(p.live && p.urgent) | none => true)
  | _ => false

/-- A context that may take an engine fault has no record open, and no far acquire or roll-back under way (13 R346, R362; 09 R235). -/
def Ctx.takesFault (k : Ctx) : Bool :=
  k.trapcause == 0 && k.farAcq.isNone && !(match k.preempt with | some p => p.rolling | none => false)

/-- The timer whose limit a context has passed: its next bundle raises that trap in phase 6, under slot 0 (10 R259, 13 R358, 02 R46;
log 63). -/
def Ctx.overdue (k : Ctx) (rgn : Bool) : Option Instr :=
  if k.inFtr && k.ftrmax.toNat < k.ftrTimer then some .ftrTimerExpiry
  else if k.regionmax.toNat < k.regionTimer && !rgn && k.trapcause == 0 then some .regionLimitExpiry
  else none

/-- The scalar that an X form names in TD (09 R225, R239 to R243). -/
def tdOf : Instr → Nat
  | .smld f | .smldAcq f | .smatomAdd f | .smatomSwap f | .smatomCas f | .smatomMinI f | .smatomMaxI f | .smatomMinN f | .smatomMaxN f
  | .smalloc f | .smfree f | .smquery f | .layreg f => f.td.toNat
  | _ => 0

/-- The opposite port of a port (10 R272). -/
def oppositePort (p : Nat) : Nat :=
  match p with
  | 0 => 2 | 1 => 3 | 2 => 0 | 3 => 1 | 4 => 5 | 5 => 4 | 6 => 7 | 7 => 6 | 8 => 9 | _ => 8

/-- The ports that an F form names: RELAY names its output port, and pops from the opposite one (10 R260, R272; log 56). -/
def portsNamed : Instr → List Nat
  | .send f | .recv f | .recvaddReg f | .recvaddAcc f => [f.pt.toNat]
  | .relay f => [f.pt.toNat, oppositePort f.pt.toNat]
  | _ => []

/-- The issue record of a bundle. -/
def openIssue (t c : Nat) (k : Ctx) (w next : Nat) (n : Nat) (ops : List Instr := []) : Issue :=
  let hw := w % 2 ^ 64
  { tile := t, ctx := c, pc := k.pc, nextPc := next, hdr := Header.ofWord hw, alone := n ≤ 1
    zeroHdr := !(Header.ofWord hw).rgn && !(Header.ofWord hw).blk
    lvl := k.lvl, trapOpen := k.trapcause != 0, pre := k
    td := (ops.map tdOf).foldl max 0, fabPorts := ops.flatMap portsNamed }

/-- What a context of a tile would do if it took issue (R24 to R28, R46 phases 1 and 2; 10 R259; 13 R343, R358, R361). -/
noncomputable def State.attempt (s : State) (t c : Nat) : Attempt :=
  let x := s.tile t
  let k := x.ctx c
  if !(x.live c) || !k.stands then .none
  else if !k.pendingFaults.isEmpty && k.takesFault then .event .engineFaultTaken []
  else if k.pendingStep && k.trapcause == 0 then .fails { phase := 0, slot := 0, kind := .trap .precise cSingleStep 0 0 }
  else
    match fetch x k with
    | .fails _ => .event .illegalCodeWord []
    | .bundle w next literal =>
      let rgn := w % 2 == 1
      let lazy := match k.preempt with | some p => p.live && !p.urgent && !k.inFtr && k.lockLeft.isNone | none => false
      if rgn && lazy then .none
      else if literal && !k.literalPaid && (k.overdue rgn).isNone then .literal
      else
        let (ops, fails) := decodeBundle w
        match firstFail fails with
        | some f => .event .unassignedOpcode [f.slot, encodingWord f]
        | none =>
          let all := issueOrder (Header.ofWord (w % 2 ^ 64)) ops
          .run (openIssue t c k w next (ops.filter fun o => !isNop o.instr).length (ops.map (·.instr))) all

/-- The next bundle of a context opens a region. -/
def State.opensRegion (s : State) (t c : Nat) : Bool :=
  match fetch (s.tile t) (s.ctx t c) with
  | .bundle w _ _ => w % 2 == 1
  | .fails _ => false

/-! ### The selector (R294) -/

/-- A context that has the tile to itself: it holds a bank lock or is inside a fixed-time region. -/
def Tile.exclusive (x : Tile) : Option Nat :=
  (x.ctxs.find? fun e => e.2.lockLeft.isSome || e.2.inFtr).map (·.1)

/-- The last holder keeps issue when it held it in the last cycle, is ready, is of the top priority and has not yielded. -/
def Tile.keeps (x : Tile) (now : Nat) (ready : List Nat) (top : Nat) : Bool :=
  x.heldAt == some (now - 1) && 0 < now && ready.contains x.lastCtx && (x.ctx x.lastCtx).prio.toNat == top && !x.yielded

/-- The highest priority of some contexts. -/
def Tile.topPrio (x : Tile) (ready : List Nat) : Nat := ready.foldl (fun a c => max a (x.ctx c).prio.toNat) 0

/-- The quantum of the last holder is over and its next bundle, or a trap entry, lets another ready context of its priority in. -/
def Tile.quantumOver (x : Tile) (now : Nat) (ready : List Nat) (opens : Bool) : Bool :=
  let top := x.topPrio ready
  x.keeps now ready top && x.quantum.toNat ≤ now - x.tookAt && (opens || x.trapEntrySwitch)
    && ready.any fun c => c != x.lastCtx && (x.ctx c).prio.toNat == top

/-- The context that issues, of those ready (R294). -/
def Tile.select (x : Tile) (now : Nat) (ready : List Nat) : Option Nat :=
  match x.exclusive with
  | some c => if ready.contains c then some c else none
  | none =>
    let top := x.topPrio ready
    if x.keeps now ready top then some x.lastCtx
    else
      let h := x.lastCtx
      [(h + 1) % 4, (h + 2) % 4, (h + 3) % 4, h].find? fun c => ready.contains c && (x.ctx c).prio.toNat == top

/-! ### The header operations and the NOPs -/

/-- A NOP has no effect (R49). -/
def execNop : State → Host.Outcome State Fault Refusal := issueOp fun _ => {}
/-- The F slot's NOP (R49). -/
def execNopF : State → Host.Outcome State Fault Refusal := issueOp fun _ => {}
/-- The C slot's NOP (R49). -/
def execNopC : State → Host.Outcome State Fault Refusal := issueOp fun _ => {}

/-- An illegal-schedule trap as a failing check of phase 5. -/
def scheduleTrap : Check := trapCheck cIllegalSchedule 0 phSchedule

/-- Checkpoint the control state (13 R359). -/
def Ctx.checkpoint (k : Ctx) (pc : BitVec 17) : Checkpoint :=
  { pc := pc, rbase := k.rbase, loops := k.loops, links := k.links }

/-- A region opens: the checkpoint, the timer at zero, and nothing that makes it non-repeatable yet (13 R358, R359). -/
def Ctx.openRegion (k : Ctx) (pc : BitVec 17) : Ctx :=
  { k with
    check := k.checkpoint pc
    regionTimer := 0
    nonRepeatable := false
    regionNo := k.regionNo + 1 }

/-- A result in exposed flight in a cycle: bound for a register, and a remote value until its nominal landing (09 R234). -/
def Landing.flies (l : Landing) (now : Nat) : Bool :=
  l.dest.key.isSome && match l.nominal with | some n => now < n | none => !l.free

/-- REGION_OPEN (13 R358, 02 R31, R32): no exposed-latency result may be in flight, and no lock in force; it waits for registers that
late values hold (09 R234). -/
def execRegionOpen : State → Host.Outcome State Fault Refusal :=
  issueOp fun s =>
    { checks := firstOf [failIf ((s.cur.inflight.any fun l => l.flies s.now) || s.cur.lockLeft.isSome) scheduleTrap,
        failIf (!(s.cur.heldAt s.now).isEmpty) (holdCheck .matrixBusy 2 0 0 .none phSchedule)]
      act := fun s => s.modCur fun k => k.openRegion s.issue.pc }

/-- A fabric command of the tile has reserved one of the banks for a cycle in which the lock may last (10 R266). -/
def Tile.reservedIn (x : Tile) (first last : Nat) (banks : List Nat) : Bool :=
  x.bankRes.any fun r => first ≤ r.2 && r.2 ≤ last && banks.contains r.1

/-- BANK_LOCK (02 R32, 08 R195): from cycle 1 the tile's banks BLKA and BLKB are held for the next BLKN bundles. -/
def execBankLock : State → Host.Outcome State Fault Refusal :=
  issueOp fun s =>
    let h := s.issue.hdr
    { checks := firstOf [failIf s.cur.lockLeft.isSome scheduleTrap,
        failIf (s.curTile.reservedIn (s.now + 1) (s.now + 1 + 2 * h.blkn.toNat) [h.blka.toNat, h.blkb.toNat])
          (trapCheck cIllegalSchedule 0)]
      act := fun s =>
        (s.modCurTile fun x => { x with lock := some { ctx := s.issue.ctx, bankA := h.blka.toNat, bankB := h.blkb.toNat } }).modCur
          fun k => { k with lockLeft := some h.blkn.toNat } }

/-! ### Events in place of a bundle -/

/-- The event's tile and context. -/
def State.evCtx (s : State) : Ctx := s.ctx s.focus.tile s.focus.ctx
def State.evNow (s : State) : Nat := s.tickOf s.focus.tile

/-- A precise trap of the event's context at its next bundle, naming slot 0. -/
def evTrap (cause : Nat) (addr : Word) (s : State) : State :=
  let k := s.evCtx
  raiseTrap s.focus.tile s.focus.ctx
    { kind := .precise, cause := BitVec.ofNat 8 cause, pc := k.pc, slot := 0, addr := addr, ret := k.pc } s

/-- FTR_TIMER_EXPIRY (10 R259): the bundle the context would issue next breaches with reason 8. -/
def execFtrTimerExpiry (s : State) : Host.Outcome State Fault Refusal :=
  let k := s.evCtx
  if k.inFtr && k.ftrmax.toNat < k.ftrTimer then .next (evTrap cBreach (breachAddr 8 0 k.ftrTimer) s) else .next s

/-- REGION_LIMIT_EXPIRY (13 R358): the next bundle without RGN raises the region-limit trap. -/
def execRegionLimitExpiry (s : State) : Host.Outcome State Fault Refusal :=
  let k := s.evCtx
  if k.regionmax.toNat < k.regionTimer && k.trapcause == 0 then .next (evTrap cRegionLimit (BitVec.ofNat 64 k.regionTimer) s)
  else .next s

/-- ILLEGAL_CODE_WORD (01 R17, 02 R24, R26): the fetch that fails phase 1 traps. -/
def execIllegalCodeWord (s : State) : Host.Outcome State Fault Refusal :=
  let k := s.evCtx
  match fetch (s.tile s.focus.tile) k with
  | .fails ch =>
    match ch.kind with
    | .trap _ cause addr _ => .next (evTrap cause addr s)
    | _ => .next s
  | .bundle _ _ _ => .next s

/-- UNASSIGNED_OPCODE (02 R47): an illegal encoding traps, naming the slot and its bits. -/
def execUnassignedOpcode (s : State) : Host.Outcome State Fault Refusal :=
  let k := s.evCtx
  .next (raiseTrap s.focus.tile s.focus.ctx
    { kind := .precise, cause := BitVec.ofNat 8 cIllegalEncoding, pc := k.pc, slot := BitVec.ofNat 4 (s.focus.args.getD 0 0)
      addr := BitVec.ofNat 64 (s.focus.args.getD 1 0), ret := k.pc } s)

/-- The watchdog's limit in cycles; 0 is off (11 R296). -/
def Ctx.watchLimit (k : Ctx) : Nat := k.wdog.toNat * 65536

def Ctx.watchOver (k : Ctx) : Bool :=
  0 < k.watchLimit && k.watchLimit < k.blockedFor && (match k.st with | .blocked _ => true | _ => false)

/-- PROGRESS_WATCHDOG (11 R296): a context Blocked for too long traps at the bundle that is held, but yields to an engine fault that it
takes in this cycle (13 R346). -/
def execProgressWatchdog (s : State) : Host.Outcome State Fault Refusal :=
  let k := s.evCtx
  if k.watchOver && (k.pendingFaults.isEmpty || !k.takesFault) then .next (evTrap cWatchdog (BitVec.ofNat 64 k.blockedFor) s) else .next s

/-- QUANTUM_EXPIRY (11 R294): the last holder does not keep issue in this cycle. -/
def execQuantumExpiry (s : State) : Host.Outcome State Fault Refusal :=
  .next (s.modTile s.focus.tile fun x => { x with yielded := true })

end Sys2Proof.Machine
end

