-- ==== Sys2Proof/Machine/Cycle.lean ====
section
/-! DEFINITION. What every cycle does whatever is issued: the counts that advance with a die's clock (10 R248, R259; 11 R294,
R296; 13 R345, R358), the choice of who goes next (log 7), and the bundle as the step hands it to its operations. -/

namespace Sys2Proof.Machine

/-- A context in its handler or Parked: its region timer, quantum and watchdog count stand still (13 R345). -/
def Ctx.timersStop (k : Ctx) : Bool := k.trapcause != 0 || k.st == .parked

/-- One cycle of a context's counts. -/
def Ctx.tick (k : Ctx) : Ctx :=
  { k with
    ftrTimer := if k.inFtr then k.ftrTimer + 1 else k.ftrTimer
    regionTimer := if k.st == .ready && k.trapcause == 0 then k.regionTimer + 1 else k.regionTimer
    blockedFor := match k.st with
      | .blocked _ => if k.trapcause == 0 then k.blockedFor + 1 else k.blockedFor
      | .ready => if k.trapcause == 0 then 0 else k.blockedFor
      | _ => k.blockedFor }

/-- One cycle of a tile's counts: a bank lock's hold ends with its last cycle, past reservations go. -/
def Tile.tick (x : Tile) (now : Nat) : Tile :=
  { x with
    ctxs := x.ctxs.map fun e => (e.1, e.2.tick)
    tookAt := if (x.ctx x.lastCtx).timersStop && x.live x.lastCtx then x.tookAt + 1 else x.tookAt
    lock := match x.lock with
      | some l => (match l.ending with | some e => if e ≤ now then none else some l | none => some l)
      | none => none
    linkRes := x.linkRes.filter fun r => now < r.2 + 5
    bankRes := x.bankRes.filter fun r => now < r.2
    granted := x.granted.filter fun r => now < r.2 }

/-- The clock edge of a die. -/
def State.clockDie (s : State) (d : Nat) : State :=
  let now := (s.die d).tick
  let s := { s with tiles := s.tiles.map fun (e : Nat × Tile) => if dieOf e.1 = d then (e.1, e.2.tick now) else (e : Nat × Tile) }
  s.modDie d fun x => { x with tick := x.tick + 1, groupUse := x.groupUse.filter fun u => now < u.2.1 }

/-- Who goes next: a die or the hub, a free choice (log 7). -/
def State.nextTurn (s : State) : State :=
  let (n, s) := s.draw
  { s with turn := Fin.ofNat 5 n }

/-- The next tile of the die in turn, from a number on, that has a context. -/
def State.nextTile (s : State) (lo : Nat) : Option Nat :=
  (s.tiles.find? fun e => lo ≤ e.1 && dieOf e.1 == s.turn.val && !e.2.ctxs.isEmpty).map (·.1)

/-- The state in which an operation of a bundle runs. -/
def State.atOp (s : State) (slot : Nat) (mode : IssueMode) : State :=
  s.modIssue fun i => { i with slot := slot, mode := mode }

/-- The context takes issue in this cycle, and its bundle stands in `issue`. -/
def State.open (s : State) (is : Issue) : State :=
  { (s.modTile is.tile fun x => x.tookIssue is.ctx (s.tickOf is.tile)) with issue := is }

/-- What a walk that ended without a leaf found is not kept beyond the bundle's next trial (16 R380). -/
def Ctx.forgetAbsence (k : Ctx) : Ctx :=
  { k with walks := k.walks.filter fun w => match w.res with | some .unmapped | some (.malformed _) => false | _ => true }

/-- A context that a hold keeps: it is Blocked or Paused, and what the hold starts is started (11 R293). -/
def State.heldBy (s : State) (t c : Nat) (f : Fail) : State :=
  let s := s.modCtx t c Ctx.forgetAbsence
  match f.kind with
  | .hold why _ _ _ => (applyEffect t c f.effect s).modCtx t c fun k => { k with st := .blocked why }
  | .pause => (applyEffect t c f.effect s).modCtx t c fun k => { k with st := .paused }
  | .trap _ _ _ _ => s

/-- The failure holds its context, rather than trapping it (10 R261, 08 R195). -/
def Fail.holds (f : Fail) (k : Ctx) : Bool :=
  match f.kind with
  | .trap _ _ _ _ => false
  | .hold _ _ _ _ => k.lockLeft.isNone && !k.inFtr
  | .pause => k.lockLeft.isNone

/-- A context that nothing holds any more is Ready (11 R293). -/
def Ctx.released (k : Ctx) : Ctx :=
  match k.st with
  | .blocked _ | .paused => { k with st := .ready }
  | _ => k

end Sys2Proof.Machine
end

