-- ==== Sys2Proof/Machine/Csr.lean ====
section
/-! DEFINITION. The control-register map (05 Table 5.3): what each number reads, which level may read and write it, which new
values it accepts, and its write. -/

namespace Sys2Proof.Machine

/-- A key time has reached another: the 64-bit difference, read as signed, is not negative (10 R248). -/
def reached (x y : Word) : Bool := 0 ≤ (x - y).toInt

/-- The sum of the stretch increments in force at a key time (10 R253). -/
def Die.stretchAt (d : Die) (x : Word) : Nat :=
  (d.stretches.filter fun e => reached x (BitVec.ofNat 64 e.2)).foldl (fun a e => a + e.1) 0

/-- TILEID of a tile (Table 5.3). -/
def tileIdWord (t : Nat) : Nat :=
  dieOf t * 2 ^ 24 + (t % 48 / 8) * 2 ^ 20 + (t % 8) * 2 ^ 16 + rowOf t * 2 ^ 12 + colOf t * 2 ^ 8 + t

/-- The value a CSR form reads through the issuing context (R129, R130). -/
def State.csrRead (s : State) (n : Nat) : Word :=
  let k := s.cur
  let d := s.die (dieOf s.issue.tile)
  match n with
  | 0x000 => BitVec.ofNat 64 (bit01 k.lockLeft.isSome * 2 ^ 10 + bit01 k.inFtr * 2 ^ 9 + bit01 k.sstep * 2 ^ 8
      + k.prio.toNat * 4 + s.issue.ctx)
  | 0x001 => k.valloc.zeroExtend 64
  | 0x002 => k.rbase.zeroExtend 64
  | 0x010 => k.fmtsel.zeroExtend 64
  | 0x011 => k.fmtloop.zeroExtend 64
  | 0x020 => k.seed
  | 0x021 => k.stepReg
  | 0x030 => BitVec.ofNat 64 d.tick
  | 0x031 => d.keyoff
  | 0x032 => k.latemax.zeroExtend 64
  | 0x033 => BitVec.ofNat 64 (d.stretchAt d.keyTime)
  | 0x034 => k.ftrmax.zeroExtend 64
  | 0x035 => k.regionmax.zeroExtend 64
  | 0x040 => s.curTile.quantum.zeroExtend 64
  | 0x050 => k.tenant.zeroExtend 64
  | 0x051 => k.lvl.zeroExtend 64
  | 0x060 => k.trapcause.zeroExtend 64
  | 0x061 => k.trappc.zeroExtend 64
  | 0x062 => k.trapslot.zeroExtend 64
  | 0x063 => k.estep.zeroExtend 64
  | 0x064 => k.trapaddr
  | 0x065 => k.tvec.zeroExtend 64
  | 0x070 | 0x071 | 0x072 | 0x073 | 0x074 | 0x075 => (FMap.getD k.idx (n - 0x070) 0).zeroExtend 64
  | 0x078 | 0x079 | 0x07A | 0x07B | 0x07C | 0x07D => (FMap.getD k.gdim (n - 0x078) 1).zeroExtend 64
  | 0x080 => BitVec.ofNat 64 (tileIdWord s.issue.tile)
  | 0x081 => BitVec.ofNat 64 (dieOf s.issue.tile)
  | 0x082 => BitVec.ofNat 64 s.nodeId
  | 0x083 => BitVec.ofNat 64 (s.torusZ * 2 ^ 16 + s.torusY * 2 ^ 8 + s.torusX)
  | 0x090 => k.sembase.zeroExtend 64
  | 0x091 => k.semcnt.zeroExtend 64
  | 0x0A0 => k.dictbase.zeroExtend 64
  | 0x0A1 => k.dictlen.zeroExtend 64
  | 0x0B0 => k.vflags.zeroExtend 64
  | 0x0C0 | 0x0C1 | 0x0C2 | 0x0C3 | 0x0C4 | 0x0C5 => (FMap.getD d.linklat (n - 0x0C0) 0).zeroExtend 64
  | _ => 0

/-- The trap registers and TVEC, which user level neither reads nor writes (access code S, R128). -/
def csrSupervisor (n : Nat) : Bool := 0x060 ≤ n && n ≤ 0x065

/-- User level may read some field of the register (R128, R130). -/
def csrUserReads (n : Nat) : Bool := !csrSupervisor n

/-- The bits a level may change (R128, Table 5.3): RW fields at both levels, SW and S fields at supervisor level. -/
def csrWriteBits (n : Nat) (sup : Bool) : Nat :=
  match n with
  | 0x002 => 2 ^ 5 - 1
  | 0x010 => 2 ^ 4 - 1
  | 0x011 => 2 ^ 3 - 1
  | 0x020 | 0x021 => 2 ^ 64 - 1
  | 0x0B0 => 2 ^ 6 - 1
  | 0x000 => if sup then 2 ^ 8 else 0
  | 0x032 | 0x034 | 0x035 => if sup then 2 ^ 32 - 1 else 0
  | 0x040 => if sup then 2 ^ 16 - 1 else 0
  | 0x060 => if sup then 2 ^ 8 - 1 else 0
  | 0x061 | 0x065 => if sup then 2 ^ 17 - 1 else 0
  | 0x062 => if sup then 2 ^ 4 - 1 else 0
  | 0x063 => if sup then 2 ^ 16 - 1 else 0
  | 0x064 => if sup then 2 ^ 64 - 1 else 0
  | _ => 0

/-- The level may write some field of the register (R130). -/
def csrWritable (n : Nat) (sup : Bool) : Bool := csrWriteBits n sup != 0

/-- A value Table 5.3 calls invalid: FMTLOOP 7, QUANTUM 0, TRAPSLOT 9 to 15. -/
def csrInvalid (n : Nat) (v : Word) : Bool :=
  (n == 0x011 && v == 7) || (n == 0x040 && v == 0) || (n == 0x062 && 9 ≤ v.toNat)

/-- The new value changes only fields the level may write, no reserved bit, and is not invalid (R130). A reserved bit reads
as zero, so a change of one is a nonzero bit. -/
def csrAccepts (n : Nat) (sup : Bool) (old new : Word) : Bool :=
  ((old ^^^ new) &&& ~~~(BitVec.ofNat 64 (csrWriteBits n sup))) == 0 && !csrInvalid n new

/-- The write of a per-context register (R130, R131). -/
def Ctx.csrWrite (k : Ctx) (n : Nat) (v : Word) : Ctx :=
  match n with
  | 0x000 => { k with sstep := v.getLsbD 8 }
  | 0x002 => { k with rbase := v.truncate 5 }
  | 0x010 => { k with fmtsel := v.truncate 4 }
  | 0x011 => { k with fmtloop := v.truncate 3 }
  | 0x020 => { k with seed := v }
  | 0x021 => { k with stepReg := v }
  | 0x032 => { k with latemax := v.truncate 32 }
  | 0x034 => { k with ftrmax := v.truncate 32 }
  | 0x035 => { k with regionmax := v.truncate 32 }
  | 0x060 => { k with trapcause := v.truncate 8 }
  | 0x061 => { k with trappc := v.truncate 17 }
  | 0x062 => { k with trapslot := v.truncate 4 }
  | 0x063 => { k with estep := v.truncate 16 }
  | 0x064 => { k with trapaddr := v }
  | 0x065 => { k with tvec := v.truncate 17 }
  | 0x0B0 => { k with vflags := v.truncate 6 }
  | _ => k

/-- The write of a control register through a context: QUANTUM is the tile's (R131). -/
def State.csrWrite (s : State) (t c n : Nat) (v : Word) : State :=
  if n = 0x040 then s.modTile t fun x => { x with quantum := v.truncate 16 }
  else s.modCtx t c fun k => k.csrWrite n v

end Sys2Proof.Machine
end

