-- ==== Sys2Proof/Machine/Access.lean ====
section
/-! DEFINITION. Global addresses and translation (08 R187 to R189, 12 R321 to R333, 09 R217): what an address names, what an
access may reach, the pages and range entries that carry it to physical bytes, and reading and writing those bytes. -/

namespace Sys2Proof.Machine

/-! ### Address layouts (R187) -/

/-- A global address by Table 8.2. -/
inductive GAddr where
  | hbm (off : Nat)
  | wstore (die off : Nat)
  | window (gr : Bool) (gx gy tnum kind off : Nat)
  | switch (gen sw : Nat) (mir : Bool) (sheet off : Nat)
  | remote (node rsp inner : Nat)
  deriving DecidableEq, Repr

def hbmLimit : Nat := 0x6000000000
def wstoreLimit : Nat := 0xC0000000
def scratchLimit : Nat := 0x400000
/-- Size of a tile memory by the window's KIND. -/
def kindLimit (kind : Nat) : Nat := if kind = 0 then scratchLimit else if kind = 1 then 0x100000 else if kind = 2 then 0x120000 else 0
def sheetSize : Nat := 0x200000

/-- An address of space 0, 1 or 2 within its unnamed bits; `none` is the global-address trap of R189. -/
def decodeInner (space a : Nat) : Option GAddr :=
  match space with
  | 0 => if a / 2 ^ 39 = 0 ∧ a < hbmLimit then some (.hbm a) else none
  | 1 => if a / 2 ^ 34 = 0 ∧ a % 2 ^ 32 < wstoreLimit then some (.wstore (a / 2 ^ 32) (a % 2 ^ 32)) else none
  | 2 =>
    let kind := bits a 23 22
    let off := bits a 21 0
    let gr := bitAt a 40
    if a / 2 ^ 41 = 0 ∧ bits a 31 24 = 0 ∧ off < kindLimit kind ∧ (gr ∨ bits a 39 32 ≤ 191) then
      some (.window gr (bits a 35 32) (bits a 39 36) (bits a 39 32) kind off)
    else none
  | _ => none

/-- The address a 64-bit word names (R187, R189). -/
def GAddr.ofWord (x : Word) : Option GAddr :=
  let a := x.toNat
  let space := bits a 63 60
  if space ≤ 2 then decodeInner space (bits a 59 0)
  else if space = 3 then
    if bitAt a 59 then none
    else some (.switch (bits a 58 43) (bits a 42 40) (bitAt a 39) (bits a 38 21) (bits a 20 0))
  else if space < 8 then none
  else
    match decodeInner (bits a 42 41) (bits a 40 0) with
    | some (.window true _ _ _ _ _) => none
    | some _ => some (.remote (bits a 62 43) (bits a 42 41) (bits a 40 0))
    | none => none

/-- An address of the package's own node reaches local memory (R189). -/
def GAddr.local (s : State) (g : GAddr) : GAddr :=
  match g with
  | .remote node rsp inner => if node = s.nodeId then (decodeInner rsp inner).getD g else g
  | g => g

/-- An address of the package's own node as the local address it obeys every rule of (R189). -/
def State.localVa (s : State) (va : Word) : Word :=
  match GAddr.ofWord va with
  | some (.remote node rsp inner) => if node = s.nodeId then BitVec.ofNat 64 (rsp * 2 ^ 60 + inner) else va
  | _ => va

/-- The first byte of a range and its length stay within the limit of the address's kind (R189). -/
def GAddr.fits (g : GAddr) (len : Nat) : Bool :=
  match g with
  | .hbm off => off + len ≤ hbmLimit
  | .wstore _ off => off + len ≤ wstoreLimit
  | .window _ _ _ _ kind off => off + len ≤ kindLimit kind && (kind != 1 || (off % 8 == 0 && len % 8 == 0))
  | .switch _ _ _ _ off => off + len ≤ sheetSize
  | .remote _ rsp inner =>
    match decodeInner rsp inner with
    | some (.hbm off) => off + len ≤ hbmLimit
    | some (.wstore _ off) => off + len ≤ wstoreLimit
    | some (.window _ _ _ _ kind off) => off + len ≤ kindLimit kind && (kind != 1 || (off % 8 == 0 && len % 8 == 0))
    | _ => false

/-! ### Keys and HBM (R332, R333) -/

/-- A tenant may use a key slot (R332). -/
def State.keyUsable (s : State) (slot tenant : Nat) : Bool :=
  match FMap.get? s.keys slot with
  | some k => !k.dropping && (k.tenant == tenant || (k.tenant == 0 && k.share))
  | none => false

/-- The pair of a slot; an empty slot has the zero pair. -/
def State.pairOf (s : State) (slot : Nat) : BitVec 512 :=
  match FMap.get? s.keys slot with
  | some k => k.pair
  | none => 0

/-- The fault queues' bytes, whose DONE bytes package reset sets to 1 (13 R352). -/
def faultQueueBase : Nat := 0x5FFFC00000
def inFaultQueue (pa : Nat) : Bool := faultQueueBase ≤ pa && pa < faultQueueBase + 4 * 0x100000

/-- A byte of HBM as read under a pair: as written when the unit was written under it, else what the two pairs make of it. -/
def State.hbmByte (s : State) (pair : BitVec 512) (pa : Nat) : Byte :=
  match FMap.get? s.hbmPair (pa / 64) with
  | none => if inFaultQueue pa && pa % 32 == 31 then 1 else Config.hbmInitial pair pa
  | some p =>
    if p = pair then s.hbm.byteAt pa
    else Config.decryptedUnder p pair (pa / 64) ((rangeFrom (pa / 64 * 64) 64).map s.hbm.byteAt) (pa % 64)

/-- Bytes of HBM under a pair, with their poison. -/
def State.hbmRead (s : State) (pair : BitVec 512) (pa n : Nat) : List (Byte × Bool) :=
  (rangeFrom pa n).map fun a => (s.hbmByte pair a, s.hbm.poisonAt a)

/-- Bring a unit under a pair: the read and merge half of a write of part of it (R333). -/
def State.hbmRekey (s : State) (pair : BitVec 512) (unit : Nat) : State :=
  if FMap.get? s.hbmPair unit = some pair then s
  else
    { s with
      hbm := s.hbm.write (unit * 64) (s.hbmRead pair (unit * 64) 64)
      hbmPair := FMap.insert s.hbmPair unit pair }

/-- Write bytes of HBM under a pair. -/
def State.hbmWrite (s : State) (pair : BitVec 512) (pa : Nat) (bs : List (Byte × Bool)) : State :=
  let units := if bs.isEmpty then [] else rangeFrom (pa / 64) ((pa + bs.length - 1) / 64 - pa / 64 + 1)
  let s := units.foldl (fun s u => s.hbmRekey pair u) s
  { s with hbm := s.hbm.write pa bs }

/-! ### Translation (R322 to R325) -/

/-- Space of a translated address in range entries and tags: 0 HBM, 1 weight store, 2 and 3 their remote kinds. -/
def GAddr.xspace : GAddr → Option (Nat × Nat)
  | .hbm off => some (0, off)
  | .wstore die off => some (1, die * 2 ^ 32 + off)
  | .remote _ rsp inner => if rsp ≤ 1 then some (2 + rsp, inner % 2 ^ 39) else none
  | _ => none

/-- A physical offset lies within its kind and keeps the die of the virtual one (R322, R325). -/
def physOk (space virt phys : Nat) : Bool :=
  if space % 2 = 0 then phys < hbmLimit
  else phys / 2 ^ 34 == 0 && phys % 2 ^ 32 < wstoreLimit && bits phys 33 32 == bits virt 33 32

/-- Bytes from an offset on that a displacement keeps within the kind's limit, and within the die of the virtual offset (R322). -/
def physRoom (space virt phys : Nat) : Nat :=
  if space % 2 = 0 then hbmLimit - phys else min (wstoreLimit - phys % 2 ^ 32) (2 ^ 32 - virt % 2 ^ 32)

/-- A range entry serves an access of the tenant and space (R322). -/
def RangeEntry.serves (e : RangeEntry) (tenant space : Nat) : Bool :=
  e.w0.getLsbD 0 && bits e.w0.toNat 15 4 == tenant && bits e.w0.toNat 2 1 == space
def RangeEntry.covers (e : RangeEntry) (off : Nat) : Bool := e.base.toNat ≤ off && off ≤ e.limit.toNat

/-- The physical offset an entry gives (R322). -/
def RangeEntry.phys (e : RangeEntry) (off : Nat) : Int := (off : Int) + e.disp.toInt

/-- A matching entry is malformed (R322). -/
def RangeEntry.malformed (e : RangeEntry) (space off : Nat) : Bool :=
  e.w0.toNat / 2 ^ 31 != 0 || e.w0.getLsbD 3 || bits e.w0.toNat 18 17 == 3
    || e.base.toNat % 65536 != 0 || e.disp.toNat % 65536 != 0 || e.base.toNat / 2 ^ 39 != 0 || e.limit.toNat / 2 ^ 39 != 0
    || e.limit.toNat % 65536 != 65535 || e.phys off < 0 || !physOk space off (e.phys off).toNat

/-- Attributes of a translation. -/
structure Attr where
  ord : Nat
  perm : Nat
  key : Nat
  cow : Bool
  deriving DecidableEq, Repr

/-- One translation of an access: its identity, the first offset past it, the physical offset, the attributes. -/
structure Xlate where
  ident : Nat × Nat × Nat
  stop : Nat
  phys : Nat
  attr : Attr
  deriving DecidableEq, Repr

/-- What looking up one offset gives. -/
inductive Look where
  | found (x : Xlate)
  | walk
  | unmapped
  | malformed (level : Nat)
  deriving DecidableEq, Repr

/-- The nearest base above an offset among entries that would win over what stands there. -/
def nextBase (es : FMap RangeEntry) (tenant space off before : Nat) : Nat :=
  (es.filter fun e => e.1 < before && e.2.serves tenant space && off < e.2.base.toNat && e.2.base.toNat ≤ e.2.limit.toNat).foldl
    (fun a e => min a e.2.base.toNat) (2 ^ 62)

/-- Range entries: the lowest-numbered match wins (R322). -/
def lookRange (es : FMap RangeEntry) (tenant space off : Nat) : Option Look :=
  match es.find? fun e => e.2.serves tenant space && e.2.covers off with
  | none => none
  | some (n, e) =>
    if e.malformed space off then some (.malformed 0)
    else
      let w := e.w0.toNat
      some (.found
        { ident := (space, 99, n)
          stop := min (min (e.limit.toNat + 1) (off + physRoom space off (e.phys off).toNat)) (nextBase es tenant space off n)
          phys := (e.phys off).toNat
          attr := { ord := bits w 18 17, perm := bits w 20 19, key := bits w 30 21, cow := bitAt w 16 } })

/-- A TLB entry as the translation of an offset it covers. -/
def TlbEntry.xlate (e : TlbEntry) (off : Nat) : Xlate :=
  { ident := (e.space, e.shift, e.vpn)
    stop := (e.vpn + 1) * 2 ^ e.shift
    phys := e.base + off % 2 ^ e.shift
    attr := { ord := e.ord, perm := e.perm, key := e.key, cow := e.cow } }

def TlbEntry.covers (e : TlbEntry) (tenant space off : Nat) : Bool :=
  e.tenant == tenant && e.space == space && off / 2 ^ e.shift == e.vpn

/-- Page shift of a leaf at a walk level, if its SIZE is legal there (R323). -/
def leafShift (level size : Nat) : Option Nat :=
  match level, size with
  | 1, 3 => some 30
  | 2, 2 => some 21
  | 3, 0 => some 12
  | 3, 1 => some 16
  | _, _ => none

/-- The byte of a page table as the walker reads it, under the pair its unit was written under (log 25). -/
def State.tableByte (s : State) (pa : Nat) : Byte := s.hbmByte ((FMap.get? s.hbmPair (pa / 64)).getD 0) pa

/-- One walk from a table of a level down (R323, R325): a table past HBM's limit is a physical offset past its kind's limit. -/
def walkFrom (s : State) (tenant space off : Nat) : Nat → Nat → Nat → WalkEnd
  | 0, _, _ => .unmapped
  | fuel + 1, level, table =>
    let hi := 38 - 9 * (level - 1)
    let idx := bits off hi (hi - 8)
    let pa := table + 8 * idx
    let e := ofBytes ((rangeFrom pa 8).map s.tableByte)
    let size := bits e 3 2
    let target := bits e 38 12 * 4096
    if (rangeFrom pa 8).any fun a => s.hbm.poisonAt a then .malformed level
    else if !bitAt e 0 then .unmapped
    else if bits e 63 56 != 0 || bits e 45 39 != 0 || bits e 11 10 != 0 || bitAt e 4 || bits e 7 6 == 3 then .malformed level
    else if !bitAt e 1 then
      if size != 0 || level == 3 || hbmLimit ≤ target then .malformed level else walkFrom s tenant space off fuel (level + 1) target
    else
      match leafShift level size with
      | none => .malformed level
      | some sh =>
        let base := if sh = 16 then target / 65536 * 65536 else target
        if (sh = 16 && bits target 15 12 != idx % 16) || (sh != 16 && target % 2 ^ sh != 0)
            || !physOk space off (base + off % 2 ^ sh) then .malformed level
        else
          .leaf { tenant := tenant, space := space, shift := sh, vpn := off / 2 ^ sh, base := base, ord := bits e 7 6,
                  perm := bits e 9 8, key := bits e 55 46, cow := bitAt e 5 }

/-- A whole walk from the tenant's root of the space (R321, R323); a root past HBM's limit is malformed at level 1 (log 25). -/
def State.walk (s : State) (tenant space off : Nat) : WalkEnd :=
  let root := ((FMap.getD s.descs tenant []).getD (space + 1) 0).toNat
  let table := bits root 38 12 * 4096
  if !bitAt root 0 then .unmapped else if hbmLimit ≤ table then .malformed 1 else walkFrom s tenant space off 3 1 table

/-- What a completed walk says of an offset: its leaf when that covers it, else its failure for the same page. -/
def WalkReq.answers (w : WalkReq) (tenant space off : Nat) : Option WalkEnd :=
  match w.res with
  | some (.leaf e) => if e.covers tenant space off then some (.leaf e) else none
  | some r => if w.space = space ∧ w.off / 4096 = off / 4096 then some r else none
  | none => none

/-- Look one offset up for a tile: its die's range entries, the TLBs, the walks its context has done (R322, R217). -/
def State.look (s : State) (t : Nat) (walks : List WalkReq) (tenant space off : Nat) : Look :=
  let d := s.die (dieOf t)
  match lookRange d.ranges tenant space off with
  | some r => r
  | none =>
    let cut := fun (x : Xlate) => Look.found { x with stop := min x.stop (nextBase d.ranges tenant space off 64) }
    match ((s.tile t).tlb ++ d.tlb).find? (fun e => e.covers tenant space off) with
    | some e => cut (e.xlate off)
    | none =>
      match (walks.findSome? (fun w => w.answers tenant space off) : Option WalkEnd) with
      | some (.leaf e) => cut (e.xlate off)
      | some .unmapped => .unmapped
      | some (.malformed l) => .malformed l
      | none => .walk

/-! ### Where an operand lies -/

/-- What an operand comes to: its pieces, a failed check, or walks to wait for. -/
inductive Placed where
  | ok (segs : List Seg) (idents : List (Nat × Nat × Nat)) (layout : Option Nat)
  | fails (k : Check)
  | waits (space off : Nat)

/-- The physical place of a translated offset. -/
def physPlace (g : GAddr) (phys : Nat) : Space × Nat :=
  match g with
  | .wstore _ _ => (.wstore (phys / 2 ^ 32), phys % 2 ^ 32)
  | .remote node rsp _ => (.remote node rsp, phys)
  | _ => (.hbm, phys)

/-- A refused or faulting translation as a check, with the virtual address of the first byte concerned (R325). -/
def xlateFails (s : State) (tenant : Nat) (write : Bool) (a : Attr) (va : Word) : Option Check :=
  if write && a.cow then some ⟨phOther, .trap .translation cCopyOnWrite va 0, .none⟩
  else if !bitAt a.perm (if write then 1 else 0) || !s.keyUsable a.key tenant then some (trapCheck cPermission va)
  else none

/-- Translate a range piece by piece (R217, R322): `fuel` bounds the pieces, and `first` is the footprint's first address, which a
footprint of too many translations records. -/
def placeRange (s : State) (t : Nat) (k : Ctx) (g : GAddr) (space : Nat) (write : Bool) (va first : Word) :
    Nat → Nat → Nat → List Seg → List (Nat × Nat × Nat) → Placed
  | 0, _, _, _, _ => .fails (trapCheck cCopyOperand first)
  | fuel + 1, off, left, segs, ids =>
    if left = 0 then .ok segs.reverse ids none
    else
      let here := va + BitVec.ofNat 64 (segs.foldl (fun a x => a + x.len) 0)
      match s.look t k.walks k.tenant.toNat space off with
      | .walk => .waits space off
      | .unmapped => .fails ⟨phOther, .trap .translation cUnmapped here 0, .none⟩
      | .malformed l => .fails ⟨phOther, .trap .translation cMalformed here l, .none⟩
      | .found x =>
        let ids := if ids.contains x.ident then ids else x.ident :: ids
        match xlateFails s k.tenant.toNat write x.attr here with
        | some c => .fails c
        | none =>
          if 64 < ids.length then .fails (trapCheck cCopyOperand first)
          else
            let n := min left (x.stop - off)
            let p := physPlace g x.phys
            if n = 0 then .fails (trapCheck cCopyOperand first)
            else
              placeRange s t k g space write va first fuel (off + n) (left - n)
                ({ va := here.toNat, space := p.1, off := p.2, len := n, ord := x.attr.ord, key := x.attr.key } :: segs) ids

/-- The piece of a list of pieces that starts at a distance from its first byte and is so long. -/
def cutSegs : List Seg → Nat → Nat → List Seg
  | [], _, _ => []
  | x :: xs, skip, n =>
    if n = 0 then []
    else if x.len ≤ skip then cutSegs xs (skip - x.len) n
    else
      let m := min (x.len - skip) n
      { x with va := x.va + skip, off := x.off + skip, len := m } :: cutSegs xs 0 (n - m)

def segsLen (l : List Seg) : Nat := l.foldl (fun a x => a + x.len) 0

/-- A live layout record covers a range with the permission it needs (R217). -/
def Layout.covers (y : Layout) (va len : Nat) (write : Bool) : Bool :=
  y.live && (if write then y.canWrite else y.canRead) && y.va ≤ va && va + len ≤ y.va + y.len

/-- A range whose address is translated, of at least a byte. -/
def State.translates (s : State) (va : Word) (len : Nat) : Bool :=
  0 < len && (((GAddr.ofWord va).map (GAddr.local s)).bind GAddr.xspace).isSome

/-- The layout record that alone translates a footprint: it covers every translated range of the command, each with the permission it
needs (R217). -/
def State.layoutOver (s : State) (k : Ctx) (ranges : List (Word × Nat × Bool)) : Option Nat :=
  let rs := ranges.filter fun r => s.translates r.1 r.2.1
  if rs.isEmpty then none
  else (k.layouts.find? fun e => rs.all fun r => e.2.covers (s.localVa r.1).toNat r.2.1 r.2.2).map (·.1)

/-- The footprint's first address: of its translated ranges the first in operand order (R217; log 83). -/
def State.firstOver (s : State) (ranges : List (Word × Nat × Bool)) : Word :=
  match ranges.find? fun r => s.translates r.1 r.2.1 with
  | some r => r.1
  | none => 0

/-- The tile that holds a member of a context's gathering (R287, R291). -/
def State.memberTile (s : State) (k : Ctx) (r : Nat) : Option Nat := FMap.get? (FMap.getD s.places k.inst []) r

/-- A tile of the package is owned by the context's tenant, or the tenant is 0 (12 Table 12.1). -/
def State.mayReach (s : State) (k : Ctx) (t : Nat) : Bool :=
  k.tenant == 0 || (s.tile t).owner == some k.tenant.toNat

/-- The tile a window names for a context, or the check it fails (R189). Addresses that name a tile under compaction are held
(R291). -/
def State.windowTile (s : State) (k : Ctx) (va : Word) (gr : Bool) (gx gy tnum : Nat) : Except Check Nat :=
  if gr then
    match s.memberTile k (16 * gy + gx) with
    | none => .error (trapCheck cGlobalAddress va)
    | some t =>
      match s.moving with
      | some (a, _) => if a = t then .error (holdCheck .watermark 4) else .ok t
      | none => .ok t
  else if k.lvl != 1#1 then .error (trapCheck cPrivilege va)
  else if !s.mayReach k tnum then .error (trapCheck cPermission va)
  else .ok tnum

/-- The tile memory a window's KIND names. -/
def kindSpace (kind t : Nat) : Space := if kind = 0 then .scratch t else if kind = 1 then .acc t else .om t

/-- A sheet of a switch. -/
def State.switch (s : State) (w : Nat) : Switch := FMap.getD s.switches w {}
def State.sheet (s : State) (w n : Nat) : Sheet := FMap.getD (s.switch w).sheets n {}

/-- The entry of a switch's sheet table is live under a handle of its own (09 R239). -/
def Sheet.named (h : Sheet) (sw : Nat) : Bool := h.live && (!h.mir || h.primary == sw)

/-- The switch that serves a sheet: its own, or what is left of a mirrored pair (09 R244). -/
def State.home (s : State) (w n : Nat) : Nat := (s.sheet w n).alone.getD w

/-- The checks of 09 R237 on an address: 3, 4 and 5. -/
def State.sheetFails (s : State) (k : Ctx) (va : Word) (g : GAddr) (len : Nat) (read write : Bool) : List Check :=
  match g with
  | .switch gen sw mir sheet _ =>
    let h := s.sheet sw sheet
    firstOf [
      failIf (!g.fits len) (trapCheck cGlobalAddress va),
      failIf (!h.named sw || h.gen.toNat != gen || h.mir != mir) (trapCheck cStaleHandle va),
      failIf (h.tenant != k.tenant.toNat || (read && !bitAt h.perm 0) || (write && !bitAt h.perm 1)
        || !s.keyUsable h.key k.tenant.toNat) (trapCheck cPermission va)]
  | _ => [trapCheck cGlobalAddress va]

/-- Another package refuses a supervisor a tile of another tenant: whose its tiles are is free here (12 Table 12.1; log 5). -/
def State.remoteRefuses (s : State) (k : Ctx) (va : Word) : Bool := k.tenant != 0 && Config.freeFor s.free (va.toNat / 2 ^ 24) % 2 == 1

/-- The check of R189 that an operand address and length fail before translation, if any; refusals come after it (09 R220). -/
def State.globalFails (s : State) (k : Ctx) (va : Word) (len : Nat) : List Check :=
  match GAddr.ofWord va with
  | none => [trapCheck cGlobalAddress va]
  | some g =>
    match g.local s with
    | .window gr gx gy tnum kind off =>
      let g : GAddr := .window gr gx gy tnum kind off
      firstOf [failIf (!g.fits len || (gr && (s.memberTile k (16 * gy + gx)).isNone)) (trapCheck cGlobalAddress va),
        failIf (!gr && k.lvl != 1#1) (trapCheck cPrivilege va)]
    | .remote node rsp inner =>
      firstOf [failIf (!(GAddr.remote node rsp inner).fits len) (trapCheck cGlobalAddress va),
        failIf (rsp == 2 && k.lvl != 1#1) (trapCheck cPrivilege va)]
    | g => failIf (!g.fits len) (trapCheck cGlobalAddress va)

/-- A range that a layout record translates: its pieces, or the access-permission trap of the first whose key slot is unusable (R217, 12
R332). -/
def State.placeLayout (s : State) (k : Ctx) (i : Nat) (va : Word) (len : Nat) : Placed :=
  let y := FMap.getD k.layouts i ({} : Layout)
  let a := (s.localVa va).toNat
  let segs := (cutSegs y.segs (a - y.va) len).map fun g => { g with va := va.toNat + (g.va - a) }
  match segs.find? fun g => !s.keyUsable g.key k.tenant.toNat with
  | some g => .fails (trapCheck cPermission (BitVec.ofNat 64 g.va))
  | none => .ok segs [] (some i)

/-- Where an operand that passes R189 lies (R217), refusals among the checks: translated from the layout record `lay` that covers the
command's footprint, or piece by piece. -/
def State.place (s : State) (t : Nat) (k : Ctx) (va : Word) (len : Nat) (write : Bool) (lay : Option Nat) (first : Word) : Placed :=
  match (GAddr.ofWord va).map (GAddr.local s) with
  | none => .fails (trapCheck cGlobalAddress va)
  | some (.window gr gx gy tnum kind off) =>
    match s.windowTile k va gr gx gy tnum with
    | .ok t' => .ok [{ va := va.toNat, space := kindSpace kind t', off := off, len := len }] [] none
    | .error c => .fails c
  | some (.switch gen sw mir sheet off) =>
    let h := s.sheet sw sheet
    match s.sheetFails k va (.switch gen sw mir sheet off) len (!write) write with
    | c :: _ => .fails c
    | [] => .ok [{ va := va.toNat, space := .switch sw, off := sheet * sheetSize + off, len := len, ord := h.ord, key := h.key }] [] none
  | some g =>
    match g.xspace with
    | none =>
      if s.remoteRefuses k va then .fails (trapCheck cPermission va)
      else .ok [{ va := va.toNat, space := .remote (bits va.toNat 62 43) 2, off := bits va.toNat 40 0, len := len }] [] none
    | some (space, off) =>
      match lay with
      | some i => s.placeLayout k i va len
      | none => placeRange s t k g space write va first 512 off len [] []

/-- A placed operand's checks: its fault, or a hold that starts its walk (R217). -/
def Placed.checks : Placed → List Check
  | .ok _ _ _ => []
  | .fails k => [k]
  | .waits space off => [holdCheck .watermark 4 0 0 (.startWalks [space * 2 ^ 40 + off])]

def Placed.segs : Placed → List Seg
  | .ok segs _ _ => segs
  | _ => []

def Placed.idents : Placed → List (Nat × Nat × Nat)
  | .ok _ i _ => i
  | _ => []

def Placed.layout : Placed → List Nat
  | .ok _ _ (some i) => [i]
  | _ => []

/-! ### Reading and writing pieces -/

/-- The accumulator entry at a window offset: row and column (R187). -/
def accKey (row col : Nat) : Nat := 128 * row + col

def Tile.readAcc (x : Tile) (row col : Nat) : AccEntry := FMap.getD x.acc (accKey row col) {}
/-- WriteAcc of 00 Table 0.1. -/
def Tile.writeAcc (x : Tile) (row col : Nat) (e : AccEntry) : Tile := { x with acc := FMap.setD x.acc (accKey row col) e {} }

/-- The entries that a run of bytes of the accumulator window touches: first and count. -/
def entriesOf (off n : Nat) : Nat × Nat := if n = 0 then (off / 8, 0) else (off / 8, (off + n - 1) / 8 - off / 8 + 1)

/-- Whole entries of the accumulator window as bytes, without their SAT bits (08 R191). -/
def Tile.entryBytes (x : Tile) (first count : Nat) : List (Byte × Bool) :=
  (rangeFrom first count).flatMap fun i =>
    let e := FMap.getD x.acc i ({} : AccEntry)
    valBytes 8 e.val.toNat e.poison

/-- Bytes of an accumulator window: of the whole entries that are read, those asked for (08 R191). -/
def Tile.accBytes (x : Tile) (off n : Nat) : List (Byte × Bool) :=
  let r := entriesOf off n
  ((x.entryBytes r.1 r.2).drop (off % 8)).take n

/-- Entries of whole eights of bytes are written: the SAT bit clears, the poison is the data's (08 R191). -/
def Tile.putEntries (x : Tile) (first : Nat) (bs : List (Byte × Bool)) : Tile :=
  (List.range (bs.length / 8)).foldl (fun x i =>
    let b := (bs.drop (8 * i)).take 8
    { x with acc := FMap.setD x.acc (first + i) { val := BitVec.ofNat 64 (bytesVal b), poison := bytesPoison b } {} }) x

/-- Bytes written through the window: an entry written in part keeps its other bytes, and their poison (08 R191; log 84). -/
def Tile.accWrite (x : Tile) (off : Nat) (bs : List (Byte × Bool)) : Tile :=
  let r := entriesOf off bs.length
  let old := x.entryBytes r.1 r.2
  x.putEntries r.1 (old.take (off % 8) ++ bs ++ old.drop (off % 8 + bs.length))

/-- The pair a unit of a sheet is kept under. -/
def Sheet.unitPair (h : Sheet) (u : Nat) : BitVec 512 := FMap.getD h.unitPairs u h.pair

/-- Sheet bytes under a pair (R333, R334). -/
def Sheet.read (h : Sheet) (pair : BitVec 512) (tweak off n : Nat) : List (Byte × Bool) :=
  (rangeFrom off n).map fun a =>
    let p := h.unitPair (a / 64)
    (if p = pair then h.data.byteAt a
     else Config.decryptedUnder p pair (tweak + a / 64) ((rangeFrom (a / 64 * 64) 64).map h.data.byteAt) (a % 64),
     h.data.poisonAt a)

/-- Write sheet bytes under a pair, whole units read and merged (R333). -/
def Sheet.write (h : Sheet) (pair : BitVec 512) (tweak off : Nat) (bs : List (Byte × Bool)) : Sheet :=
  let units := if bs.isEmpty then [] else rangeFrom (off / 64) ((off + bs.length - 1) / 64 - off / 64 + 1)
  let h := units.foldl (fun h u =>
    if h.unitPair u = pair then h
    else { h with data := h.data.write (u * 64) (h.read pair tweak (u * 64) 64), unitPairs := FMap.setD h.unitPairs u pair h.pair }) h
  { h with data := h.data.write off bs }

/-- The tweak of a sheet's unit 0 (R333). -/
def sheetTweak (sw sheet gen : Nat) : Nat := 2 ^ 124 + gen * 2 ^ 36 + sw * 2 ^ 33 + sheet * 2 ^ 15

/-- Bytes of one piece, from `skip` on, `n` of them. Switch memory is read by Switch.lean; another package's memory gives free
bytes (log 5). -/
def State.readSeg (s : State) (g : Seg) (skip n : Nat) : List (Byte × Bool) :=
  match g.space with
  | .hbm => s.hbmRead (s.pairOf g.key) (g.off + skip) n
  | .wstore d => (s.die d).wstore.read (g.off + skip) n
  | .scratch t => (s.tile t).scratch.read (g.off + skip) n
  | .om t => (s.tile t).om.read (g.off + skip) n
  | .acc t => (s.tile t).accBytes (g.off + skip) n
  | .switch w =>
    let n' := g.off / sheetSize
    (s.sheet (s.home w n') n').read (s.pairOf g.key) (sheetTweak w n' (s.sheet w n').gen.toNat) (g.off % sheetSize + skip) n
  | .remote _ _ => (List.range n).map fun i => (Config.remoteByte s.free (g.va + skip + i), false)

def State.modSheet (s : State) (w n : Nat) (f : Sheet → Sheet) : State :=
  let x := s.switch w
  { s with switches := FMap.insert s.switches w { x with sheets := FMap.insert x.sheets n (f (s.sheet w n)) } }

/-- The switches that hold a sheet's bytes: its own, both of a pair that still mirrors it, or what is left of the pair (09 R244). -/
def State.holders (s : State) (w n : Nat) : List Nat :=
  let h := s.sheet w n
  if h.mir && h.alone.isNone then [(w + 4) % 8, w] else [s.home w n]

/-- A sheet changes at every switch that holds it, at the mirror first (09 R244). -/
def State.modSheets (s : State) (w n : Nat) (f : Sheet → Sheet) : State := (s.holders w n).foldl (fun s v => s.modSheet v n f) s

/-- Write bytes into one piece from `skip` on. -/
def State.writeSeg (s : State) (g : Seg) (skip : Nat) (bs : List (Byte × Bool)) : State :=
  match g.space with
  | .hbm => s.hbmWrite (s.pairOf g.key) (g.off + skip) bs
  | .wstore d => s.modDie d fun x => { x with wstore := x.wstore.write (g.off + skip) bs }
  | .scratch t => s.modTile t fun x => { x with scratch := x.scratch.write (g.off + skip) bs }
  | .om t => s.modTile t fun x => { x with om := x.om.write (g.off + skip) bs }
  | .acc t => s.modTile t fun x => x.accWrite (g.off + skip) bs
  | .switch w =>
    let n := g.off / sheetSize
    let tweak := sheetTweak w n (s.sheet w n).gen.toNat
    s.modSheets w n fun h => h.write (s.pairOf g.key) tweak (g.off % sheetSize + skip) bs
  | .remote _ _ => s

/-- Bytes of a run of pieces, from a distance on. -/
def State.readSide (s : State) (segs : List Seg) (skip n : Nat) : List (Byte × Bool) :=
  (cutSegs segs skip n).flatMap fun g => s.readSeg g 0 g.len

/-- Write a run of bytes over pieces. -/
def writeSegs : List Seg → List (Byte × Bool) → State → State
  | [], _, s => s
  | g :: gs, bs, s => writeSegs gs (bs.drop g.len) (s.writeSeg g 0 (bs.take g.len))

def State.writeSide (s : State) (segs : List Seg) (skip : Nat) (bs : List (Byte × Bool)) : State :=
  writeSegs (cutSegs segs skip bs.length) bs s

/-- Two pieces share a physical byte (08 R206). -/
def Seg.meets (a b : Seg) : Bool := a.space == b.space && overlaps a.off a.len b.off b.len
def segsMeet (a b : List Seg) : Bool := a.any fun x => b.any fun y => x.meets y

end Sys2Proof.Machine
end

