-- ==== Sys2Proof/Machine/Engines.lean ====
section
/-! DEFINITION. What the engines share: sync registers and semaphores (11 R297 to R300), phasers (11 R311 to R317), engine faults
(13 R346), busy accumulator regions (04 R95), grants of scratchpad banks (08 R193). -/

namespace Sys2Proof.Machine

/-! ### Events of the current cycle -/

/-- An event taken before the rest of the agenda. -/
def State.soon (s : State) (i : Instr) (f : Focus) : State := { s with agenda := ⟨i, f⟩ :: s.agenda }
/-- An event taken after the rest of the agenda, in the same cycle. -/
def State.afterwards (s : State) (i : Instr) (f : Focus) : State := { s with agenda := s.agenda ++ [⟨i, f⟩] }

def ctxFocus (t c : Nat) : Focus := { die := dieOf t, tile := t, ctx := c }
def cmdFocus (t c id : Nat) : Focus := { die := dieOf t, tile := t, ctx := c, id := id }

/-! ### Semaphores (R297, R299, R300) -/

/-- An addition to a semaphore saturates at 0xFFFF and then sets ERR (R297). -/
def Sem.add (m : Sem) (n : Nat) : Sem :=
  if 0xFFFF < m.value.toNat + n then { value := 0xFFFF, err := true } else { m with value := BitVec.ofNat 16 (m.value.toNat + n) }

def Tile.sem (x : Tile) (i : Nat) : Sem := FMap.getD x.sems i {}
def Tile.setSem (x : Tile) (i : Nat) (m : Sem) : Tile := { x with sems := FMap.setD x.sems i m {} }

/-- A context's semaphore of a relative index (R297). -/
def Ctx.semAt (k : Ctx) (i : Nat) : Nat := k.sembase.toNat + i

/-- Signal(y): INC is added to SSEM; a non-OK completion also sets ERR; an inert register does neither (R298, R299). -/
def Tile.signal (x : Tile) (k : Ctx) (y : SyncReg) (nonOk : Bool) : Tile :=
  if y.inert then x
  else
    let i := k.semAt y.ssem.toNat
    let m := (x.sem i).add y.inc.toNat
    x.setSem i (if nonOk then { m with err := true } else m)

/-- A wait through y is met: VALUE of WSEM is at least THR; a wait ignores ERR (R299). -/
def Tile.waitMet (x : Tile) (k : Ctx) (y : SyncReg) : Bool :=
  y.thr == 0 || y.thr.toNat ≤ (x.sem (k.semAt y.wsem.toNat)).value.toNat

/-- THR is subtracted in the cycle in which the wait is met (R299). -/
def Tile.takeWait (x : Tile) (k : Ctx) (y : SyncReg) : Tile :=
  if y.thr == 0 then x
  else
    let i := k.semAt y.wsem.toNat
    let m := x.sem i
    x.setSem i { m with value := m.value - y.thr }

/-- A register that is not inert names semaphores below SEMCNT, or the command traps (R298). -/
def Ctx.syncFails (k : Ctx) (y : SyncReg) : List Check :=
  if y.inert then []
  else
    firstOf [failIf (k.semcnt.toNat ≤ y.wsem.toNat) (trapCheck cSemRange (y.wsem.zeroExtend 64)),
      failIf (k.semcnt.toNat ≤ y.ssem.toNat) (trapCheck cSemRange (y.ssem.zeroExtend 64))]

/-- OR flags into the issuing context's VFLAGS at a completion (04 R101). -/
def State.orFlags (s : State) (t c : Nat) (f : Flags) : State :=
  if f = 0#6 then s else s.modCtx t c fun k => { k with vflags := k.vflags ||| f }

/-! ### Phasers (R311 to R317) -/

def PhaserRef.key (p : PhaserRef) : Nat := if p.hub then 4096 + p.num else 1024 * p.die + p.num
def State.phaser (s : State) (p : PhaserRef) : Option Phaser := FMap.get? s.phasers p.key
def State.setPhaser (s : State) (p : PhaserRef) (x : Phaser) : State := { s with phasers := FMap.insert s.phasers p.key x }

/-- Change the slots of a context that name a phaser. -/
def Ctx.mapSlots (k : Ctx) (p : PhaserRef) (f : PhaserSlot → PhaserSlot) : Ctx :=
  { k with phslots := k.phslots.map fun e => if e.2.phaser = p then (e.1, f e.2) else e }

/-- Every slot registered on a phaser, of contexts on tiles and of saved ones, changes alike. -/
def State.mapMembers (s : State) (p : PhaserRef) (f : PhaserSlot → PhaserSlot) : State :=
  { s with
    tiles := s.tiles.map fun e => (e.1, { e.2 with ctxs := e.2.ctxs.map fun k => (k.1, k.2.mapSlots p f) })
    saved := s.saved.map fun v => { v with ctx := v.ctx.mapSlots p f } }

/-- A slot is registered on the phaser. -/
def State.hasMember (s : State) (p : PhaserRef) : Bool :=
  (s.tiles.any fun e => e.2.ctxs.any fun k => k.2.phslots.any fun x => x.2.phaser == p)
    || s.saved.any fun v => v.ctx.phslots.any fun x => x.2.phaser == p

/-- The current phase completes (R315); what PHWAIT must see is kept with the time of each die. -/
def Phaser.complete (x : Phaser) (ticks : List Nat) : Phaser :=
  { x with
    ph := x.ph + 1
    narr := 0
    pend := x.target
    nsig := x.nsigNext
    got := false
    doneAt := FMap.insert x.doneAt x.ph ticks }

/-- Completion when every arrival and byte is in and at least one arrival was made (R315). -/
def Phaser.settle (x : Phaser) (ticks : List Nat) : Phaser :=
  if x.got && x.narr == x.nsig && x.pend == 0 then x.complete ticks else x

def State.ticks (s : State) : List Nat := [0, 1, 2, 3].map fun d => (s.die d).tick

/-- A declaration of d bytes (R314). -/
def State.declare (s : State) (p : PhaserRef) (d : Nat) : State :=
  match s.phaser p with
  | none => s
  | some x =>
    if d = 0 then s
    else if d ≤ x.pend then s.setPhaser p (({ x with got := true, pend := x.pend - d } : Phaser).settle s.ticks)
    else
      let x := { x with pend := 0, overrun := true }
      (s.setPhaser p (x.complete s.ticks)).mapMembers p fun e => { e with overrun := true }

/-- An arrival counts for the phase it is made in, with the bytes it declares (R313, R314). -/
def State.countArrival (s : State) (p : PhaserRef) (phase b : Nat) : State :=
  match s.phaser p with
  | none => s
  | some x =>
    if x.ph != phase then s
    else
      let x := { x with narr := x.narr + 1, got := true }
      if b = 0 then s.setPhaser p (x.settle s.ticks) else (s.setPhaser p x).declare p b

/-- One member's arrival: it counts for the current phase, and its slot's arrival phase becomes the next (R313). -/
def State.arrive (s : State) (t c slot : Nat) (b : Nat) : State :=
  match FMap.get? (s.ctx t c).phslots slot with
  | none => s
  | some e =>
    match s.phaser e.phaser with
    | none => s
    | some x =>
      let s := s.modCtx t c fun k => { k with phslots := FMap.insert k.phslots slot { e with arrival := x.ph + 1 } }
      s.countArrival e.phaser x.ph b

def Role.signals : Role → Bool
  | .wait => false
  | _ => true
def Role.waits : Role → Bool
  | .sig => false
  | _ => true

/-- PHDROP's effect (R317): a signalling slot that has not arrived arrives first; NSIG falls from the next phase on; a phaser
left without slots becomes inactive. -/
def State.dropSlot (s : State) (t c slot : Nat) : State :=
  match FMap.get? (s.ctx t c).phslots slot with
  | none => s
  | some e =>
    let due := match s.phaser e.phaser with | some x => e.role.signals && e.arrival ≤ x.ph | none => false
    let s := if due then s.arrive t c slot 0 else s
    let arrival := ((FMap.get? (s.ctx t c).phslots slot).getD e).arrival
    let s := s.modCtx t c fun k => { k with phslots := FMap.erase k.phslots slot }
    match s.phaser e.phaser with
    | none => s
    | some x =>
      let x := if e.role.signals then
        { x with nsigNext := x.nsigNext - 1, nsig := if arrival ≤ x.ph then x.nsig - 1 else x.nsig } else x
      if s.hasMember e.phaser then s.setPhaser e.phaser x
      else { s with phasers := FMap.erase s.phasers e.phaser.key }

/-- The slots of a context to which a signal semaphore is bound (R314). -/
def Ctx.boundTo (k : Ctx) (y : SyncReg) : List PhaserSlot :=
  if y.inert then [] else (k.phslots.map (·.2)).filter fun e => e.binding == some y.ssem.toNat

/-- An engine command of a context declares the bytes it wrote (R314). -/
def State.declareFor (s : State) (t c : Nat) (y : SyncReg) (written : Nat) : State :=
  ((s.ctx t c).boundTo y).foldl (fun s e => s.declare e.phaser written) s

/-- What every completing command does: flags, byte declaration, signal (04 R101, 09 R216, 11 R314). -/
def State.completeCmd (s : State) (t : Nat) (h : CmdHead) (flags : Flags) (written : Nat) (nonOk : Bool) : State :=
  if h.cut then s
  else
    let s := s.orFlags t h.ctx flags
    let s := s.declareFor t h.ctx h.sync written
    s.modTile t fun x => x.signal (x.ctx h.ctx) h.sync nonOk

/-! ### Commands and their faults (01 R18, R19, 13 R346) -/

/-- The head of a command the bundle in issue gives its engine. -/
def State.mkHead (s : State) (slot sy : Nat) : CmdHead :=
  { id := s.nextId, ctx := s.issue.ctx, pc := s.issue.pc, slot := slot, sync := s.cur.syncReg sy, syNum := sy
    seed := s.pre.seed, step := s.pre.stepReg, region := s.cur.regionNo, issued := s.now }

/-- An engine fault of a command, held for its context to take (R346). -/
def State.engineFault (s : State) (t : Nat) (h : CmdHead) (kind : TrapKind) (cause estep : Nat) (addr : Word) (level : Nat := 0) :
    State :=
  let r : TrapRecord :=
    { kind := kind, cause := BitVec.ofNat 8 cause, pc := h.pc, slot := BitVec.ofNat 4 h.slot, estep := BitVec.ofNat 16 estep
      addr := addr, level := BitVec.ofNat 2 level, cmd := h.id }
  (s.modCtx t h.ctx fun k => { k with pendingFaults := k.pendingFaults ++ [r] }).afterwards .engineFaultTaken (ctxFocus t h.ctx)

/-- A command's wait is met: its threshold is subtracted, and the region its context is in becomes non-repeatable (R299, 13 R359). -/
def State.meetWait (s : State) (t : Nat) (h : CmdHead) : State :=
  let s := s.modTile t fun x => x.takeWait (x.ctx h.ctx) h.sync
  if h.sync.thr == 0 then s else s.modCtx t h.ctx fun k => { k with nonRepeatable := true }

/-- The wait through the sync register is behind the command, or there is none (R299). -/
def CmdHead.clear (h : CmdHead) : Bool := h.waited || h.begunOnce || h.sync.thr == 0
/-- An accepted command's wait is not met yet. -/
def CmdHead.waits (h : CmdHead) : Bool := h.st == .queued && !h.clear

/-! ### Order of a context's accesses (08 R197, R204, R205, R211) -/

/-- Pieces on SO pages: each access to one acts as an acquire and a release (R197). -/
def strong (segs : List Seg) : Bool := segs.any fun g => g.ord == 2

/-- An X command that is an acquire, by its form or its pages; an M command that reads an SO layout is one too. -/
def XCmd.acquires (x : XCmd) : Bool := x.ord % 2 == 1 || strong (x.reads ++ x.writes)

/-- A command is a release: by its form, or because it touches SO pages (R211, R197). -/
def XCmd.releases (x : XCmd) : Bool := 2 ≤ x.ord || strong (x.reads ++ x.writes)

/-- An earlier acquire of the context is not performed yet, so its later commands do not begin (R211). -/
def Tile.behindAcquire (x : Tile) (h : CmdHead) : Bool :=
  (x.xq.any fun y => y.head.ctx == h.ctx && y.head.id < h.id && y.acquires)
    || x.mq.any fun m => m.head.ctx == h.ctx && m.head.id < h.id && strong m.segs

/-- An L-slot access that the command's bundle or an earlier one has sent over the mesh is not performed yet (R205). -/
def State.behindMesh (s : State) (t : Nat) (h : CmdHead) : Bool := s.mesh.any fun r => r.tile == t && r.ctx == h.ctx && r.id < h.id

/-- The control word of GATHER and SCATTER (09 Table 9.3). -/
structure SpanCtl where
  spanp : Nat
  scale : Bool
  idxBytes : Nat
  elen : Nat
  count : Nat

def SpanCtl.ofWord (w : Word) : SpanCtl :=
  let x := w.toNat
  { spanp := bits x 63 40, scale := bitAt x 30, idxBytes := if bitAt x 29 then 8 else 4, elen := bits x 28 16
    count := bits x 14 0 + 1 }

/-- A command that moves bytes in beats. -/
def XCmd.moves (x : XCmd) : Bool :=
  match x.op with
  | .copy | .gather | .scatter => true
  | .smld | .smst => !bitAt x.d.toNat 24
  | _ => false

/-- Units of a moving command: chunks of the destination, or elements (09 R222, R223). -/
def XCmd.units (x : XCmd) : Nat :=
  match x.op with
  | .gather | .scatter => (SpanCtl.ofWord x.d).count
  | _ => if x.dst.len = 0 then 0 else (x.dst.va + x.dst.len - 1) / 4096 - x.dst.va / 4096 + 1

/-- Steps 2 on that are done. -/
def XCmd.done (x : XCmd) : Nat := x.head.steps - 1

/-- The control word of BURNISH (07 Table 7.2). -/
structure BurnishCtl where
  mode : Nat
  gf : Nat
  rcp : Nat
  groups : Nat
  gofs : Nat

def BurnishCtl.ofWord (d : Word) : BurnishCtl :=
  let x := d.toNat
  { mode := bits x 63 62, gf := bits x 61 60, rcp := bits x 59 56, groups := bits x 55 32 + 1, gofs := bits x 24 0 }

/-- Bytes of a command's reads that are still to be fetched. -/
def XCmd.readsLeft (x : XCmd) : Bool :=
  match x.op with
  | .gather | .scatter =>
    match x.unit with
    | some (sa, _, n) => x.srcAt < sa + n || x.done + 1 < x.units
    | none => x.done < x.units
  | .burnish => x.groups != (BurnishCtl.ofWord x.d).groups
  | .recipe => x.image.isEmpty
  | _ => if x.moves then x.srcAt < x.src.len else !x.stopped && !x.reads.isEmpty

/-- Pieces of a command's writes that are still to be written: all of them, or for one that copies those from its place on. -/
def XCmd.writesLeft (x : XCmd) : List Seg :=
  if x.moves && x.op != .scatter then x.dst.segs.filter fun g => x.dst.va + x.dstAt < g.va + g.len else x.writes

/-- A command that a release waits for: it has reads to make, or writes to other than UN pages (R198, R211). -/
def XCmd.holdsRelease (x : XCmd) : Bool := x.readsLeft || x.writesLeft.any fun g => g.ord != 0

/-- Every access of the context before a command is performed, writes to UN pages apart (R211). -/
def State.releasedFor (s : State) (t : Nat) (h : CmdHead) : Bool :=
  let x := s.tile t
  !s.behindMesh t h && !(x.mq.any fun m => m.head.ctx == h.ctx && m.head.id < h.id)
    && !(x.xq.any fun y => y.head.ctx == h.ctx && y.head.id < h.id && y.holdsRelease)

/-! ### Scratchpad banks -/

/-- A bank the lock in force holds in a cycle (08 R195). -/
def Tile.bankLocked (x : Tile) (b cycle : Nat) : Bool :=
  match x.lock with
  | some l => (l.bankA == b || l.bankB == b) && (match l.ending with | some e => cycle ≤ e | none => true)
  | none => false

/-- A bank is free for an engine access in a cycle: no lock holds it, no fabric command has reserved it, and no engine access is granted
it (08 R193, R195; 10 R266). An L-slot access keeps no engine from a bank (08 R194). -/
def Tile.bankFree (x : Tile) (b cycle : Nat) : Bool := !x.bankLocked b cycle && !(x.takenBanks cycle).contains b

/-- An access of an engine that waits for banks: since when, the unit's place among equally old ones (0 matrix engine, 1 copy engine, 2
other tiles and packages), whose it is, and the banks it uses, each with its tile (08 R193). -/
structure Ask where
  age : Nat
  rank : Nat
  tile : Nat
  id : Nat
  fetch : Bool := false
  banks : List (Nat × Nat) := []
  deriving DecidableEq, Repr

/-- The older access comes first; equally old ones come in the order of their units (08 R193). -/
def Ask.before (a b : Ask) : Bool := a.age < b.age || (a.age == b.age && a.rank ≤ b.rank)

/-- An access may be granted its banks for the cycle after the current one of their tiles. -/
def State.grantable (s : State) (a : Ask) : Bool := a.banks.all fun b => (s.tile b.1).bankFree b.2 (s.tickOf b.1 + 1)

/-- The banks of an access are granted. -/
def State.grantBanks (s : State) (bs : List (Nat × Nat)) : State :=
  bs.foldl (fun s b => s.modTile b.1 fun x => { x with granted := x.granted ++ [(b.2, s.tickOf b.1 + 1)] }) s

/-- Banks that were granted for this cycle of their tiles, and that no lock and no fabric command has taken since (08 R193, R195; 10
R266). -/
def State.hasBanks (s : State) (bs : List (Nat × Nat)) : Bool :=
  bs.all fun b => (s.tile b.1).granted.contains (b.2, s.tickOf b.1) && !(s.tile b.1).bankLocked b.2 (s.tickOf b.1)
    && !(s.tile b.1).bankRes.contains (b.2, s.tickOf b.1)

/-- An access that finds its banks free takes them in the current cycle. -/
def State.takeBanks (s : State) (bs : List (Nat × Nat)) : State :=
  bs.foldl (fun s b => s.modTile b.1 fun x => { x with granted := x.granted ++ [(b.2, s.tickOf b.1)] }) s

/-- Banks that an access finds free in the cycle in which it comes up, without a grant (08 R193; log 21). -/
def State.findsBanks (s : State) (bs : List (Nat × Nat)) : Bool := bs.all fun b => (s.tile b.1).bankFree b.2 (s.tickOf b.1)

/-! ### HBM and the burnishers (07 R177) -/

def Seg.inHbm (g : Seg) : Bool := match g.space with | .hbm => true | _ => false

/-- A BURNISH that is the only user of its die's burnishers and of HBM so far, apart from one command. -/
def XCmd.aloneBut (x : XCmd) (by' : Nat) : Bool := x.op == .burnish && x.alone && x.head.id != by'

/-- A command, or something that is none (0), uses HBM: no other BURNISH is alone any more (07 R177). -/
def State.hbmUsed (s : State) (by' : Nat) : State :=
  if s.tiles.any fun e => e.2.xq.any fun x => x.aloneBut by' then
    { s with tiles := s.tiles.map fun e =>
        (e.1, { e.2 with xq := e.2.xq.map fun x => if x.aloneBut by' then { x with alone := false } else x }) }
  else s

/-- An access to some pieces is made by a command. -/
def State.noteAccess (s : State) (by' : Nat) (segs : List Seg) : State := if segs.any Seg.inHbm then s.hbmUsed by' else s

/-! ### Bank groups of the weight store (07 R167) -/

/-- Bytes that a group moves in a cycle so far. -/
def Die.groupLoad (d : Die) (g cycle : Nat) : Nat := d.groupUse.foldl (fun a u => if u.1 = g ∧ u.2.1 = cycle then a + u.2.2 else a) 0

/-- The groups that some pieces of weight store use in a cycle: die, group, cycle, bytes; at most 128 in a cycle, and the rest in the
next. -/
def groupNeeds (segs : List Seg) (now : Nat) : List (Nat × Nat × Nat × Nat) :=
  segs.flatMap fun g =>
    match g.space with
    | .wstore d =>
      (rangeFrom (g.off / 4096) ((g.off + g.len - 1) / 4096 - g.off / 4096 + 1)).flatMap fun p =>
        let lo := max g.off (p * 4096)
        let n := min (g.off + g.len) (p * 4096 + 4096) - lo
        (d, p % 96, now, min n 128) :: if 128 < n then [(d, p % 96, now + 1, min (n - 128) 128)] else []
    | _ => []

/-- The groups of some pieces are free for them. -/
def State.groupsFree (s : State) (segs : List Seg) : Bool :=
  (groupNeeds segs 0).all fun u => (s.die u.1).groupLoad u.2.1 ((s.die u.1).tick + u.2.2.1) + u.2.2.2 ≤ 128

/-- The groups of some pieces move their bytes. -/
def State.useGroups (s : State) (segs : List Seg) : State :=
  (groupNeeds segs 0).foldl (fun s u => s.modDie u.1 fun x => { x with groupUse := x.groupUse ++ [(u.2.1, x.tick + u.2.2.1, u.2.2.2)] }) s

end Sys2Proof.Machine
end

