-- ==== Sys2Proof/Machine/Matrix.lean ====
section
/-! DEFINITION. The matrix engine (04): the cell product and the column foot, acceptance and its checks, begin cycles and
conflicts, what each command does row by row, its faults and its completion. -/

namespace Sys2Proof.Machine

/-! ### The cell product and the column foot (R87, R88) -/

/-- One contribution: its value, whether it clamped, whether an operand was NaN, its poison. -/
structure Contrib where
  v : Int := 0
  clamp : Bool := false
  nan : Bool := false
  poison : Bool := false
  deriving DecidableEq, Repr

/-- T[f] · 2^e, truncated on the magnitude. -/
def truncShift (t : Nat) (e : Int) : Int := if 0 ≤ e then (t : Int) * 2 ^ e.toNat else ((t / 2 ^ (-e).toNat : Nat) : Int)

/-- CellProduct (R87): operand and weight stand on the grid of eighths. -/
def cellProduct (a w : Weight) (anchor : Int) : Contrib :=
  let p := a.poison || w.poison
  match a.v, w.v with
  | .nan, _ => { nan := true, poison := p }
  | _, .nan => { nan := true, poison := p }
  | .num sa ga, .num sw gw =>
    let g := ga + gw
    let n := g / 8
    let f := (g - 8 * n).toNat
    let (mag, clamp) := satRange (truncShift (gridTab 8 f) (n - 23 - anchor + 40)) 0 (2 ^ 63 - 1)
    { v := if sa != sw then -mag else mag, clamp := clamp, poison := p }
  | _, _ => { poison := p }

/-- ColumnFoot (R88). -/
def columnFoot (old : AccEntry) (cs : List Contrib) (add : Bool) : AccEntry :=
  let p := cs.any (·.poison) || (old.poison && add)
  if cs.any (·.nan) then { val := 0, sat := true, poison := p }
  else
    let base : Int := if add then old.val.toInt else 0
    let (v, s) := sat64 (base + (cs.foldl (fun a c => a + c.v) 0))
    { val := BitVec.ofInt 64 v, sat := s || cs.any (·.clamp) || (old.sat && add), poison := p }

/-- The flags a column's entry contributes (R107): SAT when it clamped, NV when a product had a NaN operand. -/
def columnFlags (old : AccEntry) (cs : List Contrib) (add : Bool) : Flags :=
  if cs.any (·.nan) then flNV
  else
    let base : Int := if add then old.val.toInt else 0
    flagIf ((sat64 (base + (cs.foldl (fun a c => a + c.v) 0))).2 || cs.any (·.clamp)) flSAT

/-! ### The format table (R97, R98) -/

structure Entry where
  af : Nat
  bf : Nat
  fixed : Bool
  df : Nat
  drnd : Nat
  anc : Int
  deriving DecidableEq, Repr

def Entry.ofImage (w : Word) : Entry :=
  let x := w.toNat
  { af := bits x 1 0, bf := bits x 3 2, fixed := bits x 5 4 == 1, df := bits x 9 6, drnd := bits x 12 10, anc := signExt (bits x 31 16) 16 }

/-- An image is valid (Table 4.1). -/
def imageValid (w : Word) : Bool :=
  let x := w.toNat
  bits x 63 32 == 0 && bits x 15 13 == 0 && bits x 12 10 ≤ 4 && bits x 9 6 ≤ 6 && bits x 5 4 ≤ 1 && bits x 3 2 ≤ 2 && bits x 1 0 ≤ 2
    && ((bits x 1 0 == 2) == (bits x 3 2 == 2)) && !(bits x 9 6 == 6 && bits x 12 10 != 0)

/-- The block format of an AF, BF code. -/
def blkFmtOf (code : Nat) : BlkFmt := if code = 0 then lb8 else if code = 1 then lb6 else lb4

/-- The entry index a command resolves in its issue cycle (R98); a level that is absent gives 0 (05 R131). -/
def Ctx.entryIndex (k : Ctx) : Nat :=
  let l := k.fmtloop.toNat
  if l = 0 then k.fmtsel.toNat
  else
    let e := FMap.getD k.loops l {}
    if e.kind = 0 then 0
    else if e.kind = 1 then e.n.toNat % 16
    else (FMap.getD k.idx (l - 1) 0).toNat % 16

/-! ### Operand memory and weights -/

def omSlotBytes : Nat := 0x4800

/-- A decoded element on the grid of eighths. -/
def BlkFmt.weight (B : BlkFmt) (bytes : List Byte) (poison : List Bool) (k : Nat) : Weight :=
  { v := match B.decode bytes k with
      | .num s g => .num s (g * (8 / B.n : Nat))
      | z => z
    poison := B.elemPoison poison k }

/-- The 128 elements of a slot's row (R91). -/
def Tile.omRow (x : Tile) (slot : Nat) (B : BlkFmt) (r : Nat) : List Weight :=
  (List.range 8).flatMap fun b =>
    let blk := x.om.read (slot * omSlotBytes + (8 * r + b) * B.bytes) B.bytes
    (List.range 16).map fun k => B.weight (blk.map (·.1)) (blk.map (·.2)) k

def WeightSet.at (w : WeightSet) (k j : Nat) : Weight := FMap.getD w.w (128 * k + j) {}

/-- Install one row of weights. -/
def WeightSet.setRow (w : WeightSet) (k : Nat) (ws : List Weight) : WeightSet :=
  { w with w := (List.range 128).foldl (fun m j => FMap.setD m (128 * k + j) (ws.getD j {}) {}) w.w }

def Tile.wset (x : Tile) (n : Nat) : WeightSet := if n % 2 = 0 then x.set0 else x.set1
def Tile.setWset (x : Tile) (n : Nat) (w : WeightSet) : Tile := if n % 2 = 0 then { x with set0 := w } else { x with set1 := w }

/-! ### Sizes and row times of a command -/

/-- CNT of a STREAM, n of a DRAIN or ACCCLR, regions of ANCHOR and ACCPIN. -/
def MCmd.count (m : MCmd) : Nat :=
  match m.op with
  | .stream _ _ => bits m.a.toNat 6 0 + 1
  | .drain _ => bits m.b.toNat 9 0 + 1
  | .accclr => bits m.a.toNat 9 0 + 1
  | .anchor | .accpin _ => m.os + 1
  | .wload | .wloadw => 128
  | _ => 0

/-- The accumulator rows of a command: first and count. -/
def MCmd.rowSpan (m : MCmd) : Nat × Nat :=
  match m.op with
  | .stream _ _ | .drain _ | .accclr => (m.ar, m.count)
  | .anchor | .accpin _ => (m.ar, 16 * m.count)
  | _ => (0, 0)

def MCmd.omd (m : MCmd) : Bool := match m.op with | .drain _ => bitAt m.b.toNat 16 | _ => false
def MCmd.clears (m : MCmd) : Bool := match m.op with | .drain _ => bitAt m.b.toNat 17 | _ => false
def MCmd.omw (m : MCmd) : Bool := match m.op with | .wloadw => bitAt m.b.toNat 51 | _ => false

/-- Rows the command does: all of them, or those an urgent discard lets it do (R103, R382); ANCHOR and ACCPIN go over none. -/
def MCmd.rowGoal (m : MCmd) : Nat :=
  match m.op with
  | .anchor | .accpin _ => 0
  | _ => match m.rowLimit with | some r => min r m.count | none => m.count

/-- The offset from the begin cycle in which row i is read, or for ACCCLR cleared (Tables 4.4 to 4.8, R110). -/
def MCmd.readAt (m : MCmd) (i : Nat) : Nat :=
  match m.op with
  | .wloadw => 2 * i
  | .drain rdw => if rdw then 4 * i + 1 else 2 * i + 1
  | _ => i

/-- The offset in which row i is written: of a STREAM its column 0 (Tables 4.5, 4.6, 4.8). -/
def MCmd.putAt (m : MCmd) (i : Nat) : Nat :=
  match m.op with
  | .wloadw => 2 * i + 12
  | .stream _ _ => i + 130
  | .drain rdw => if rdw then 4 * i + 9 else 2 * i + 7
  | _ => i

/-- The offset of completion (Tables 4.4 to 4.8, R110 to R114). -/
def MCmd.doneAt (m : MCmd) : Nat :=
  match m.op with
  | .wload => 128
  | .wloadw => 267
  | .stream _ _ => m.rowGoal + 257
  | .drain rdw => if rdw then 4 * m.rowGoal + 6 else 2 * m.rowGoal + 6
  | .accclr => m.count
  | .fmtsel => if m.ot % 2 = 1 then 4 else 0
  | _ => 0

/-- Cycles of the cycle table since the begin, delays left out (R101). -/
def MCmd.off (m : MCmd) (now : Nat) : Nat := now - m.head.began - m.head.delay

/-! ### Conflicts (R100) -/

/-- What a command reads and writes: accumulator rows, anchors of regions, OM slots, weight sets, format entries. -/
structure MFoot where
  rowR : Option (Nat × Nat) := none
  rowW : Option (Nat × Nat) := none
  ancR : Option (Nat × Nat) := none
  ancW : List Nat := []
  slotR : List Nat := []
  slotW : List Nat := []
  setR : List Nat := []
  setW : List Nat := []
  deriving DecidableEq, Repr

/-- The regions that hold rows of a span: first and count. -/
def regionsOf (ar n : Nat) : Nat × Nat := if n = 0 then (0, 0) else (ar / 16, (ar + n - 1) / 16 - ar / 16 + 1)
def regionList (ar n : Nat) : List Nat := rangeFrom (regionsOf ar n).1 (regionsOf ar n).2

/-- The regions all of whose rows a span covers. -/
def wholeRegions (ar n : Nat) : List Nat := (regionList ar n).filter fun k => ar ≤ 16 * k && 16 * k + 16 ≤ ar + n

/-- The anchors a STREAM sets by the fixed policy (R107). -/
def MCmd.fixes (m : MCmd) (e : Entry) : List Nat :=
  match m.op with
  | .stream _ true => if e.fixed then wholeRegions m.ar m.count else []
  | _ => []

/-- A command that reads its format-table entry (Tables 4.4, 4.6, 4.8). -/
def MOp.usesEntry : MOp → Bool
  | .wload | .stream _ _ | .drain _ => true
  | _ => false

/-- FMTSEL with an address: it writes the format-table entry that OS names (R113). -/
def MCmd.loadsEntry (m : MCmd) : Bool := match m.op with | .fmtsel => m.ot % 2 == 1 | _ => false

/-- The entry of a context that a FMTSEL accepted before a command writes. -/
def MCmd.feeds (a m : MCmd) : Bool := a.loadsEntry && a.head.ctx == m.head.ctx && a.os % 16 == m.entry && a.head.id < m.head.id

/-- The entry's image for a command that begins now: that of the last FMTSEL accepted before it, once that has read it, or else the
table's (R98, R113; log 48). -/
def Tile.entryImage (x : Tile) (m : MCmd) : Word :=
  match (x.mq.reverse.find? fun a => a.feeds m && a.head.st == .running && a.loaded) with
  | some a => a.b
  | none => FMap.getD (x.ctx m.head.ctx).fmt m.entry 0

/-- The entry's image is not known yet: a FMTSEL before the command has still to read it. -/
def Tile.entryPending (x : Tile) (m : MCmd) : Bool :=
  m.op.usesEntry && x.mq.any fun a => a.feeds m && !a.loaded && a.head.st != .held

/-- The image a command reads, or will read if it begins now. -/
def Tile.imageOf (x : Tile) (m : MCmd) : Word :=
  match m.head.st with
  | .running => m.image
  | _ => x.entryImage m

/-- The slots that a command's operand or weights lie in: OT too when the entry says LB4, and while that is not known (R105, R107). -/
def Tile.sourceSlots (x : Tile) (m : MCmd) (wide : Nat) : List Nat :=
  if wide == 2 || (m.head.st != .running && x.entryPending m) then [m.os, m.ot] else [m.os]

/-- The slots a command reads: a STREAM that multiplies by the transposed set has no second one. -/
def Tile.slotsRead (x : Tile) (m : MCmd) : List Nat :=
  let e := Entry.ofImage (x.imageOf m)
  match m.op with
  | .wload => x.sourceSlots m e.bf
  | .stream tr _ => if tr then [m.os] else x.sourceSlots m e.af
  | _ => []

/-- The slots a command writes. -/
def MCmd.slotsWritten (m : MCmd) : List Nat :=
  match m.op with
  | .wloadw => if m.omw then [m.os] else []
  | .drain _ => if m.omd then [m.os] else []
  | _ => []

/-- The footprint of a command: ORELEASE and ACCPIN.clr conflict with all that names their slots or touches their regions. -/
def Tile.foot (x : Tile) (m : MCmd) : MFoot :=
  let span := some m.rowSpan
  let anc := some (regionsOf m.rowSpan.1 m.rowSpan.2)
  let ancs := regionList m.rowSpan.1 m.rowSpan.2
  match m.op with
  | .wload => { slotR := x.slotsRead m, setW := [m.loader % 2] }
  | .wloadw => { slotW := m.slotsWritten, setW := [m.loader % 2] }
  | .stream _ _ =>
    { rowR := span, rowW := span, ancR := anc, ancW := m.fixes (Entry.ofImage (x.imageOf m)), slotR := x.slotsRead m
      setR := if m.hasSet then [m.loader % 2] else [] }
  | .drain _ => { rowR := span, rowW := if m.clears then span else none, ancR := anc, slotW := m.slotsWritten }
  | .accclr => { rowW := span, ancR := anc }
  | .anchor => { ancW := ancs }
  | .accpin clr => if clr then { rowW := span, ancW := ancs } else {}
  | .orelease => { slotW := rangeFrom m.os (m.ot + 1 - m.os) }
  | .fmtsel | .oclaim => {}

def spanMeets (a b : Option (Nat × Nat)) : Bool :=
  match a, b with
  | some x, some y => overlaps x.1 x.2 y.1 y.2
  | _, _ => false

def spanHas (a : Option (Nat × Nat)) (l : List Nat) : Bool :=
  match a with
  | some x => l.any fun k => x.1 ≤ k && k < x.1 + x.2
  | none => false

def shares {α : Type} [DecidableEq α] (a b : List α) : Bool := a.any fun x => b.contains x

/-- One writes an accumulator row that the other reads or writes. -/
def MFoot.rowClash (a b : MFoot) : Bool :=
  spanMeets a.rowW b.rowW || spanMeets a.rowW b.rowR || spanMeets a.rowR b.rowW

/-- One writes an anchor, a slot or a weight set that the other reads or writes. -/
def MFoot.otherClash (a b : MFoot) : Bool :=
  spanHas a.ancR b.ancW || spanHas b.ancR a.ancW || shares a.ancW b.ancW
    || shares a.slotW b.slotR || shares a.slotR b.slotW || shares a.slotW b.slotW
    || shares a.setW b.setR || shares a.setR b.setW || shares a.setW b.setW

def MOp.isStream : MOp → Bool
  | .stream _ _ => true
  | _ => false
def MOp.releasesSlots : MOp → Bool
  | .orelease => true
  | _ => false

/-- The slots a command's fields name, OT included in WLOAD and STREAM whatever the format (R92). -/
def MCmd.named (m : MCmd) : List Nat :=
  match m.op with
  | .wload => [m.os, m.ot]
  | .stream tr _ => if tr then [m.os] else [m.os, m.ot]
  | .orelease | .oclaim => rangeFrom m.os (m.ot + 1 - m.os)
  | _ => m.slotsWritten

/-- The later command conflicts with the earlier one (R100): of two STREAMs that write the same rows the later does not wait,
unless the earlier is held (R102). -/
def Tile.conflicts (x : Tile) (a b : MCmd) : Bool :=
  let fa := x.foot a
  let fb := x.foot b
  fa.otherClash fb || (fa.rowClash fb && !(a.op.isStream && b.op.isStream && a.head.st == .running))
    || (a.op.releasesSlots && shares fa.slotW b.named) || (b.op.releasesSlots && shares fb.slotW a.named)

/-! ### Busy regions and slots (R93, R95) -/

/-- The regions a matrix command keeps busy: ORELEASE and ACCPIN touch none. -/
def MCmd.busyRegions (m : MCmd) : List Nat :=
  match m.op with
  | .stream _ _ | .drain _ | .accclr | .anchor => regionList m.rowSpan.1 m.rowSpan.2
  | _ => []

/-- The regions a fabric command keeps busy (10 R271). -/
def FCmd.busyRegions (f : FCmd) : List Nat :=
  match f.op with
  | .addAcc _ => rangeFrom (f.a / 16384) ((f.a + 64 * f.n - 1) / 16384 - f.a / 16384 + 1)
  | _ => []

def Tile.fabricBusy (x : Tile) (k : Nat) : Bool := x.fq.any fun f => f.busyRegions.contains k
/-- Region k is busy (R95). -/
def Tile.regionBusy (x : Tile) (k : Nat) : Bool := x.mq.any (fun m => m.busyRegions.contains k) || x.fabricBusy k

/-- A queued command cannot begin before a semaphore is signalled or an access of its context is performed, or stands behind one that
cannot (R100, 08 R211). -/
def Tile.heldUp (x : Tile) (m : MCmd) : Bool :=
  m.head.st == .queued && x.mq.any fun a => a.head.id ≤ m.head.id && a.head.st == .queued
    && (a.head.waits || x.behindAcquire a.head || strong a.segs)

/-- A slot is busy for an access of an identity: with a matrix command accepted before it, or with one accepted after it that nothing
holds up, since what holds it up may be that access (R93; log 64). -/
def Tile.slotBusy (x : Tile) (slot id : Nat) : Bool :=
  x.mq.any fun m => (m.head.id < id || !x.heldUp m) && (x.slotsRead m ++ m.slotsWritten).contains slot

/-! ### Begin (R100, R102) -/

inductive MUnit where
  | loader | streamer | drain | control
  deriving DecidableEq, Repr

def MOp.unit : MOp → MUnit
  | .wload | .wloadw => .loader
  | .stream _ _ => .streamer
  | .drain _ | .accclr => .drain
  | _ => .control

/-- A running command keeps its unit from others: until its completion, or for a STREAM until w + CNT. -/
def MCmd.occupies (m : MCmd) (u : MUnit) (now : Nat) : Bool :=
  m.head.st == .running && m.op.unit == u
    && (match u with
      | .control => false
      | .streamer => m.off now < m.count
      | _ => true)

/-- An urgent request keeps the context's commands from their waits and begins (13 R362). -/
def Ctx.urgent (k : Ctx) : Bool := match k.preempt with | some p => p.live && p.urgent | none => false

/-- The request keeps a command that the discarded region accepted, and that has not begun, from beginning (13 R362, R103). -/
def Ctx.bars (k : Ctx) (h : CmdHead) : Bool := k.urgent && h.region == k.regionNo && !h.begunOnce

/-- A queued command may begin in this cycle, its SY wait and the accesses outside the engine apart (R100, R102). -/
def Tile.mayBegin (x : Tile) (now : Nat) (m : MCmd) : Bool :=
  let earlier := x.mq.filter fun a => a.head.id < m.head.id
  m.head.st == .queued && m.head.issued < now && x.mBeganAt != some now && !(x.ctx m.head.ctx).bars m.head
    && (m.head.begunOnce || earlier.all fun a => a.head.st != .queued || a.head.begunOnce)
    && !(x.mq.any fun a => a.occupies m.op.unit now)
    && !(earlier.any fun a => x.conflicts a m)
    && !(m.busyRegions.any fun k => x.fabricBusy k)
    && !x.entryPending m && !x.behindAcquire m.head

/-- A queued command may begin: the accesses that 08 R205 and R197 order before it are performed too. -/
def State.mayBeginM (s : State) (t : Nat) (m : MCmd) : Bool :=
  (s.tile t).mayBegin (s.tickOf t) m && !s.behindMesh t m.head && (!strong m.segs || s.releasedFor t m.head)

def Tile.setM (x : Tile) (m : MCmd) : Tile := { x with mq := x.mq.map fun a => if a.head.id = m.head.id then m else a }
def Tile.dropM (x : Tile) (id : Nat) : Tile := { x with mq := x.mq.filter fun a => a.head.id != id }
def Tile.findM (x : Tile) (id : Nat) : Option MCmd := x.mq.find? fun a => a.head.id == id

/-- A live layout record of a context that a handle names (09 R224). -/
def Ctx.layoutOf (k : Ctx) (h : Word) : Option (Nat × Layout) :=
  let x := h.toNat
  if bits x 63 32 != 0 || bits x 15 4 != 0 then none
  else
    match FMap.get? k.layouts (x % 16) with
    | some y => if y.live && y.gen.toNat == bits x 31 16 then some (x % 16, y) else none
    | none => none

/-- The bytes a DRAIN row takes (Table 4.7). -/
def drainRowBytes (rdw : Bool) (df : Nat) : Nat :=
  if rdw then 3072
  else match df with
    | 0 => 512
    | 1 | 2 => 256
    | 3 => 144
    | 4 => 112
    | 5 => 80
    | _ => 1024

def MCmd.rowBytes (m : MCmd) : Nat :=
  match m.op with
  | .drain rdw => drainRowBytes rdw (Entry.ofImage m.image).df
  | _ => 0

/-- The matrix-state fault of a command that begins, if any (Table 4.2). -/
def Tile.beginFault (x : Tile) (m : MCmd) (image : Word) : Option Nat :=
  let e := Entry.ofImage image
  match m.op with
  | .wloadw => if ((x.ctx m.head.ctx).layoutOf m.a).isNone then some 4 else none
  | .stream tr ovw =>
    let ws := x.wset m.loader
    if !m.hasSet || !ws.valid || ws.owner != m.head.ctx then some 1
    else if (e.af == 2) != ws.wide || (tr && ws.wide) then some 2
    else if e.fixed && (regionList m.ar m.count).any fun k =>
        !(ovw && (wholeRegions m.ar m.count).contains k) && (FMap.getD x.anchors k 0).toInt != e.anc then some 3
    else none
  | .drain rdw =>
    if m.omd && !(3 ≤ e.df && e.df ≤ 5) then some 2
    else if !m.omd && scratchLimit < m.a.toNat + m.count * drainRowBytes rdw e.df then some 5
    else none
  | _ => none

def setAnchors (x : Tile) (ks : List Nat) (v : BitVec 16) : Tile :=
  { x with anchors := ks.foldl (fun m k => FMap.setD m k v 0) x.anchors }

/-- Step 1 of a command: what it changes in its begin cycle. -/
def Tile.stepOne (x : Tile) (m : MCmd) : Tile :=
  let e := Entry.ofImage m.image
  match m.op with
  | .wload => x.setWset m.loader { wide := e.bf == 2, owner := m.head.ctx }
  | .wloadw => x.setWset m.loader { owner := m.head.ctx }
  | .stream _ _ => setAnchors x (m.fixes e) (BitVec.ofInt 16 e.anc)
  | .anchor => setAnchors x (rangeFrom (m.ar / 16) m.count) (m.a.truncate 16)
  | .orelease =>
    { x with claims := x.claims.filter fun c => !(m.os ≤ c.1 && c.1 ≤ m.ot && c.2 == m.head.ctx) }
  | .accpin true =>
    { x with pins := x.pins.filter fun c => !(m.ar / 16 ≤ c.1 && c.1 < m.ar / 16 + m.count && c.2 == m.head.ctx) }
  | _ => x

/-- A command takes its matrix-state fault in step 1, before it changes any state (R102). -/
def State.failM (s : State) (t : Nat) (m : MCmd) (reason : Nat) : State :=
  (s.modTile t fun x => x.setM { m with head := { m.head with st := .held, waited := true } }).engineFault t m.head .engine cMatrixState 1
    (BitVec.ofNat 64 reason)

/-- A command begins in this cycle: it faults at step 1, or its step 1 is done and its cycle table runs. -/
def State.beginM (s : State) (t : Nat) (m : MCmd) : State :=
  let now := s.tickOf t
  let x := s.tile t
  let image := x.entryImage m
  let s := s.modTile t fun x => { x with mBeganAt := some now }
  match x.beginFault m image with
  | some r => s.failM t m r
  | none =>
    let m := { m with
      head := { m.head with st := .running, waited := true, began := now, delay := 0, steps := 1, since := none }
      image := image
      rows := 0
      cleared := 0
      puts := 0
      pipe := []
      loaded := false
      carry := (0, []) }
    let s := s.modTile t fun x => (x.stepOne m).setM m
    s.soon (if m.doneAt = 0 then .matrixCommandCompletion else .engineStep) (cmdFocus t m.head.ctx m.head.id)

/-- MATRIX_COMMAND_BEGIN (R100, R299): in the later half of a cycle the command's SY wait is tried, after those of the commands
accepted before it (11 R300); it begins when it can. -/
def execMatrixCommandBegin (s : State) : Host.Outcome State Fault Refusal :=
  let t := s.focus.tile
  let now := s.tickOf t
  match (s.tile t).findM s.focus.id with
  | none => .next s
  | some m =>
    let k := s.ctx t m.head.ctx
    let late := s.focus.args == [1]
    let behind := (s.tile t).mq.any fun a => a.head.id < m.head.id && a.head.waits
    let tries := late && m.head.waits && !behind && m.head.issued < now && !k.bars m.head
    let met := tries && (s.tile t).waitMet k m.head.sync
    let m' := if met then { m with head := { m.head with waited := true } } else m
    let s := if met then (s.meetWait t m.head).modTile t fun x => x.setM m' else s
    .next (if m'.head.clear && s.mayBeginM t m' then s.beginM t m' else s)

/-! ### Rows -/

/-- One engine step more: its flags, and the bytes it wrote. -/
def CmdHead.didRow (h : CmdHead) (f : Flags) (bytes : Nat) : CmdHead :=
  { h with flags := h.flags ||| f, steps := h.steps + 1, written := h.written + bytes }

/-- A row of a running command is to be read in this cycle. -/
def MCmd.readDue (m : MCmd) (now : Nat) : Bool := m.rows < m.rowGoal && m.readAt m.rows ≤ m.off now

/-- The oldest row under way whose write is due. -/
def MCmd.putDue (m : MCmd) (now : Nat) : Option RowInFlight := m.pipe.head?.filter fun r => m.putAt r.i ≤ m.off now

/-- A row of WLOAD is read and decoded into the set (R105). -/
def Tile.loadRow (x : Tile) (m : MCmd) : Tile :=
  let i := m.rows
  let B := blkFmtOf (Entry.ofImage m.image).bf
  let ws := (x.wset m.loader).setRow i (x.omRow m.os B i)
  let ws := if ws.wide then ws.setRow (128 + i) (x.omRow m.ot B i) else ws
  (x.setWset m.loader ws).setM { m with rows := i + 1, head := { m.head with steps := 2 } }

/-- The slot row that row i of a STREAM reads (R107). -/
def MCmd.streamRow (m : MCmd) (i : Nat) : Nat := bits m.a.toNat 14 8 + i * (bits m.a.toNat 22 16 + 1)

/-- A STREAM reads its next slot row, as its bytes stand in this cycle (R107, R93). -/
def Tile.streamRead (x : Tile) (m : MCmd) : MCmd :=
  let B := blkFmtOf (Entry.ofImage m.image).af
  let r := m.streamRow m.rows
  let ops := if (x.wset m.loader).wide then x.omRow m.os B r ++ x.omRow m.ot B r else x.omRow m.os B r
  { m with rows := m.rows + 1, pipe := m.pipe ++ [{ i := m.rows, ops := ops }] }

/-- The contributions of a row's operand to a column (R107). -/
def Tile.products (x : Tile) (m : MCmd) (tr : Bool) (r : RowInFlight) (j : Nat) : List Contrib :=
  let ws := x.wset m.loader
  let A := (FMap.getD x.anchors ((m.ar + r.i) / 16) 0).toInt
  (List.range r.ops.length).map fun k => cellProduct (r.ops.getD k {}) (if tr then ws.at j k else ws.at k j) A

/-- Column j of a row under way is written (R107, R108). -/
def Tile.streamEntry (x : Tile) (m : MCmd) (r : RowInFlight) (j : Nat) : Tile × Flags :=
  match m.op with
  | .stream tr ovw =>
    let cs := x.products m tr r j
    let old := x.readAcc (m.ar + r.i) j
    (x.writeAcc (m.ar + r.i) j (columnFoot old cs (!ovw)), columnFlags old cs (!ovw))
  | _ => (x, 0#6)

/-- A STREAM's cycle: one column of every row that is in its foot, and the next slot row (Table 4.6). -/
def Tile.streamStep (x : Tile) (now : Nat) (m : MCmd) : Tile :=
  let off := m.off now
  let feet := m.pipe.filter fun r => m.putAt r.i ≤ off
  let (x, f) := feet.foldl (fun (y : Tile × Flags) r =>
    let (z, g) := y.1.streamEntry m r (off - m.putAt r.i)
    (z, y.2 ||| g)) (x, 0#6)
  let out := (feet.filter fun r => m.putAt r.i + 127 ≤ off).length
  let m := { m with
    pipe := m.pipe.drop out
    puts := m.puts + out
    head := { m.head with flags := m.head.flags ||| f, steps := m.head.steps + out, written := m.head.written + 1024 * out } }
  x.setM (if m.readDue now then x.streamRead m else m)

/-- Clear the entries of a row (R110). -/
def Tile.clearRow (x : Tile) (row : Nat) : Tile := (List.range 128).foldl (fun x j => x.writeAcc row j {}) x

/-- ACCCLR clears its next row (R110). -/
def Tile.clearStep (x : Tile) (m : MCmd) : Tile :=
  (x.clearRow (m.ar + m.rows)).setM { m with rows := m.rows + 1, puts := m.rows + 1, head := m.head.didRow 0#6 1024 }

/-- A DRAIN row's bytes and flags (R109). -/
def Tile.drainRow (x : Tile) (m : MCmd) (i : Nat) : List (Byte × Bool) × Flags :=
  match m.op with
  | .drain rdw =>
    let e := Entry.ofImage m.image
    let row := m.ar + i
    let A := (FMap.getD x.anchors (row / 16) 0).toInt
    let mode := RMode.ofCode e.drnd
    let ents := (List.range 128).map fun j => x.readAcc row j
    let draw := fun j => stippleDraw m.head.seed m.head.step (128 * i + j) 0
    let sat := flagIf (ents.any fun a => a.sat && !a.poison) flSAT
    let num := fun (a : AccEntry) => a64ToNum A a.val.toInt
    if rdw then
      let q := signExt (bits m.b.toNat 63 48) 16
      let ws := ents.map fun a => (Rdw.ofNum q false (num a), a.poison)
      (ws.flatMap (fun w => valBytes 8 w.1.1.b0.toNat w.2 ++ valBytes 8 w.1.1.b1.toNat w.2 ++ valBytes 8 w.1.1.b2.toNat w.2),
        sat ||| orFlags (ws.map fun w => flagsUnless w.2 w.1.2))
    else if e.df = 6 then (ents.flatMap fun a => valBytes 8 a.val.toNat a.poison, sat)
    else if e.df ≤ 2 then
      let F := if e.df = 0 then fp32 else if e.df = 1 then fp16 else bf16
      let rs := (List.range 128).map fun j =>
        let a := ents.getD j {}
        (F.ofNum mode (draw j) (num a), a.poison)
      (rs.flatMap (fun r => valBytes (if e.df = 0 then 4 else 2) r.1.1 r.2), sat ||| orFlags (rs.map fun r => flagsUnless r.2 r.1.2))
    else
      let B := blkFmtOf (e.df - 3)
      let bs := (List.range 8).map fun b =>
        let src := (ents.drop (16 * b)).take 16
        (B.encode mode (fun k => draw (16 * b + k)) none none (src.map fun a => .lin (num a)), src.any (·.poison))
      (bs.flatMap (fun r => r.1.1.map fun y => (y, r.2)), sat ||| orFlags (bs.map fun r => flagsUnless r.2 r.1.2))
  | _ => ([], 0#6)

/-- A WLOADW row (R106): the LM16 values, their encoding, their flags. -/
def wloadwRow (m : MCmd) (raw : List (Byte × Bool)) (k : Nat) : List (Byte × Bool) × Flags :=
  let mode := RMode.ofCode (bits m.b.toNat 50 48)
  let bs := (List.range 8).map fun b =>
    let src := (raw.drop (32 * b)).take 32
    let xs := (List.range 16).map fun j => BlkSrc.log 256 (lm16Decode (bytesVal ((src.drop (2 * j)).take 2)))
    (lb8.encode mode (fun j => stippleDraw m.head.seed m.head.step (128 * k + 16 * b + j) 0) none none xs, bytesPoison src)
  (bs.flatMap (fun r => r.1.1.map fun y => (y, r.2)),
    orFlags (bs.map fun r => flagsUnless r.2 r.1.2) &&& (flSAT ||| flNX ||| flUF))

/-- Elements of an encoded row of LB8 blocks as weights. -/
def rowWeights (B : BlkFmt) (row : List (Byte × Bool)) : List Weight :=
  (List.range 8).flatMap fun b =>
    let blk := (row.drop (B.bytes * b)).take B.bytes
    (List.range 16).map fun k => B.weight (blk.map (·.1)) (blk.map (·.2)) k

/-! ### DRAIN (R109) -/

/-- Where a DRAIN writes a row in the scratchpad. -/
def MCmd.putPlace (m : MCmd) (r : RowInFlight) : Nat := m.a.toNat + r.i * m.rowBytes

/-- The banks that a DRAIN's next write uses: one access, and one cycle of each bank it touches (08 R193). -/
def MCmd.putBanks (m : MCmd) (r : RowInFlight) : List Nat := if m.omd then [] else banksOf (m.putPlace r) m.rowBytes

/-- A DRAIN reads and converts its next row. -/
def Tile.drainRead (x : Tile) (m : MCmd) : MCmd :=
  let r := x.drainRow m m.rows
  { m with rows := m.rows + 1, pipe := m.pipe ++ [{ i := m.rows, cells := r.1, flags := r.2 }] }

/-- A DRAIN clears a row in the cycle after it is read. -/
def MCmd.clearDue (m : MCmd) (now : Nat) : Bool := m.clears && m.cleared < m.rows && m.readAt m.cleared + 1 ≤ m.off now

/-- A DRAIN writes a row. -/
def Tile.drainPut (x : Tile) (m : MCmd) (r : RowInFlight) : Tile × MCmd :=
  (if m.omd then { x with om := x.om.write (m.os * omSlotBytes + r.i * m.rowBytes) r.cells }
    else { x with scratch := x.scratch.write (m.putPlace r) r.cells },
    { m with pipe := m.pipe.tail, puts := m.puts + 1, head := m.head.didRow r.flags m.rowBytes })

/-- An access that a lock or another unit keeps from its banks: it and all later events of the command wait a cycle (R101, 08 R193). -/
def MCmd.wait (m : MCmd) (now : Nat) : MCmd :=
  { m with head := { m.head with delay := m.head.delay + 1, since := some (m.head.since.getD now) } }

/-- An access is made: it waits no more. -/
def MCmd.noWait (m : MCmd) : MCmd := { m with head := { m.head with since := none } }

/-- The banks of a matrix command's access are its own in this cycle. -/
def State.goesM (s : State) (t : Nat) (m : MCmd) (banks : List Nat) : Bool :=
  banks.isEmpty || ((s.tile t).granteds.contains m.head.id && s.hasBanks (banks.map fun b => (t, b)))

/-- A DRAIN's cycle (Table 4.8): the row that is due is written when its banks are granted; one is cleared; one is read. -/
def State.drainStep (s : State) (t : Nat) (m : MCmd) : State :=
  let now := s.tickOf t
  let rest := fun (x : Tile) (old m : MCmd) =>
    let (x, m) := if old.clearDue now then (x.clearRow (m.ar + m.cleared), { m with cleared := m.cleared + 1 }) else (x, m)
    x.setM (if old.readDue now then x.drainRead m else m)
  match m.putDue now with
  | some r =>
    if s.goesM t m (m.putBanks r) then
      s.modTile t fun x =>
        let (x, n) := x.drainPut m r
        rest x m n.noWait
    else s.modTile t fun x => rest x m (m.wait now)
  | none => s.modTile t fun x => rest x m m

/-! ### WLOADW (R106) -/

/-- Where a row's bytes start in the layout. -/
def MCmd.rowOfs (m : MCmd) (i : Nat) : Nat := bits m.b.toNat 31 0 + i * bits m.b.toNat 47 32

/-- The end of the 32-byte unit of weight store that holds the byte before a place in the layout (07 R168). -/
def MCmd.unitEnd (m : MCmd) (hi : Nat) : Nat :=
  let base := match m.segs with | g :: _ => g.va | [] => 0
  min (segsLen m.segs) ((base + hi + 31) / 32 * 32 - base)

/-- The bytes of the next row that are still to be read, to the end of their last unit: from where, and how many. -/
def MCmd.rowRun (m : MCmd) : Nat × Nat :=
  let lo := m.rowOfs m.rows
  let held := if m.carry.1 ≤ lo then m.carry.1 + m.carry.2.length else 0
  let from' := max lo held
  (from', m.unitEnd (lo + 256) - from')

/-- So many 32-byte units from a place in the layout on, of no more than n bytes. -/
def MCmd.unitsLen (m : MCmd) (units lo n : Nat) : Nat := min n (m.unitEnd (lo + 1 + 32 * (units - 1)) - lo)

/-- The bytes of the next row that are read, after n more: of a unit that the row before has read the rest, and those read since. -/
def State.rowRead (s : State) (m : MCmd) (n : Nat) : List (Byte × Bool) :=
  let lo := m.rowOfs m.rows
  (if m.carry.1 ≤ lo then m.carry.2.drop (lo - m.carry.1) else []) ++ s.readSide m.segs m.rowRun.1 n

/-- WLOADW writes a row into the set, and with OMW into the slot. -/
def Tile.wloadwPut (x : Tile) (m : MCmd) (r : RowInFlight) : Tile × MCmd :=
  let x := x.setWset m.loader ((x.wset m.loader).setRow r.i (rowWeights lb8 r.cells))
  let x := if m.omw then { x with om := x.om.write (m.os * omSlotBytes + 144 * r.i) r.cells } else x
  (x, { m with
    pipe := m.pipe.tail, puts := m.puts + 1
    head := { m.head with flags := m.head.flags ||| r.flags, steps := 2, written := m.head.written + if m.omw then 144 else 0 } })

/-- A free number of the row's units is read now; the rest follow in the same cycle, so that other accesses may fall between two of them
(08 R190; log 11). -/
def State.rowPart (s : State) (m : MCmd) : Nat :=
  let r := m.rowRun
  m.unitsLen (1 + Config.freeFor s.free (16 * m.head.id + 5) % 9) r.1 r.2

/-- WLOADW reads on in its row: with the last unit the row is whole, and goes to be encoded. -/
def State.wloadwRead (s : State) (t : Nat) (m : MCmd) : State :=
  let n := s.rowPart m
  let raw := s.rowRead m n
  let lo := m.rowOfs m.rows
  if n < m.rowRun.2 then
    (s.modTile t fun x => x.setM { m with carry := (lo, raw) }).afterwards .engineStep
      { cmdFocus t m.head.ctx m.head.id with args := [1] }
  else
    let (bytes, f) := wloadwRow m (raw.take 256) m.rows
    s.modTile t fun x => x.setM (MCmd.noWait { m with
      rows := m.rows + 1, carry := (lo + 256, raw.drop 256), pipe := m.pipe ++ [{ i := m.rows, cells := bytes, flags := f }] })

/-- WLOADW's cycle (Table 4.5): a row is written, and the next is read when its bank groups are free for it. -/
def State.wloadwStep (s : State) (t : Nat) (m : MCmd) : State :=
  let now := s.tickOf t
  if s.focus.args == [1] then (if m.readDue now then s.wloadwRead t m else s)
  else
    let (x, n) := match m.putDue now with | some r => (s.tile t).wloadwPut m r | none => (s.tile t, m)
    let s := s.setTile t (x.setM n)
    if !m.readDue now then s
    else
      let segs := cutSegs m.segs m.rowRun.1 m.rowRun.2
      if s.groupsFree segs then (s.useGroups segs).wloadwRead t n else s.modTile t fun x => x.setM (n.wait now)

/-! ### FMTSEL with an address (R113) -/

/-- The banks of the image. -/
def MCmd.imageBanks (m : MCmd) : List Nat := banksOf m.a.toNat 8

/-- FMTSEL reads its image in step 1, in its begin cycle or when its bank is free; an image that is invalid or poisoned faults. -/
def State.fmtselStep (s : State) (t : Nat) (m : MCmd) : State :=
  let now := s.tickOf t
  let banks := m.imageBanks.map fun b => (t, b)
  if m.loaded then s
  else if s.goesM t m m.imageBanks || (m.head.since.isNone && s.findsBanks banks) then
    let b := (s.tile t).scratch.read m.a.toNat 8
    let w := BitVec.ofNat 64 (bytesVal b)
    if bytesPoison b || !imageValid w then s.failM t m 6
    else (s.takeBanks banks).modTile t fun x => x.setM (MCmd.noWait { m with loaded := true, b := w })
  else s.modTile t fun x => x.setM (m.wait now)

/-- A matrix command's engine step: what its cycle table gives for the cycle. -/
def State.mStep (s : State) (t : Nat) (m : MCmd) : State :=
  let now := s.tickOf t
  if m.head.st != .running then s
  else
    match m.op with
    | .wload => if m.readDue now then s.modTile t fun x => x.loadRow m else s
    | .wloadw => s.wloadwStep t m
    | .stream _ _ => s.modTile t fun x => x.streamStep now m
    | .drain _ => s.drainStep t m
    | .accclr => if m.readDue now then s.modTile t fun x => x.clearStep m else s
    | .fmtsel => if m.loadsEntry then s.fmtselStep t m else s
    | _ => s

/-- The scratchpad access that a running command makes in the next cycle, if its banks are granted (08 R193). -/
def MCmd.ask (m : MCmd) (t now : Nat) : List Ask :=
  if m.head.st != .running then []
  else
    let banks :=
      match m.op with
      | .drain _ => (match m.putDue (now + 1) with | some r => m.putBanks r | none => [])
      | .fmtsel => if m.loadsEntry && !m.loaded then m.imageBanks else []
      | _ => []
    if banks.isEmpty then []
    else [{ age := m.head.since.getD (now + 1), rank := 0, tile := t, id := m.head.id, banks := banks.map fun b => (t, b) }]

/-- The access that a FMTSEL makes in its begin cycle, the next one. -/
def MCmd.askImage (m : MCmd) (t now : Nat) : Ask :=
  { age := now + 1, rank := 0, tile := t, id := m.head.id, banks := m.imageBanks.map fun b => (t, b) }

/-! ### Completion (R101) -/

/-- What a command changes in its last step. -/
def State.lastStep (s : State) (t : Nat) (m : MCmd) : State :=
  match m.op with
  | .wload | .wloadw => s.modTile t fun x => x.setWset m.loader { (x.wset m.loader) with valid := true }
  | .fmtsel =>
    if m.loadsEntry then s.modCtx t m.head.ctx fun k => { k with fmt := FMap.setD k.fmt (m.os % 16) m.b 0 } else s
  | _ => s

/-- All of a command's work is done, and its completion's cycle has come. -/
def MCmd.isDone (m : MCmd) (now : Nat) : Bool :=
  m.doneAt ≤ m.off now && (if m.loadsEntry then m.loaded else m.rows == m.rowGoal && m.pipe.isEmpty)

/-- A queued command whose wait is met will begin in the next cycle: what completes then is over. -/
def State.willBeginM (s : State) (t : Nat) (m : MCmd) : Bool :=
  let x := s.tile t
  let now := s.tickOf t
  let y : Tile := { x with mq := x.mq.filter fun a => !(a.head.st == .running && a.isDone (now + 1)) }
  y.mayBegin (now + 1) m && !s.behindMesh t m.head

/-- MATRIX_COMMAND_COMPLETION (R101): busy bits clear with the command, flags, signal. -/
def execMatrixCommandCompletion (s : State) : Host.Outcome State Fault Refusal :=
  let t := s.focus.tile
  match (s.tile t).findM s.focus.id with
  | none => .next s
  | some m =>
    if m.head.st == .running && m.isDone (s.tickOf t) then
      let s := s.lastStep t m
      .next ((s.modTile t fun x => x.dropM m.head.id).completeCmd t m.head m.head.flags m.head.written false)
    else .next s

/-! ### Issue -/

/-- Accept a command at commit (R99). -/
def State.acceptM (s : State) (m : MCmd) : State :=
  (s.modCurTile fun x => { x with mq := x.mq ++ [m] }).bump

/-- The engine is full: four commands accepted and not begun (R99, R15). -/
def Tile.mFull (x : Tile) : Bool := 4 ≤ (x.mq.filter fun m => m.head.st == .queued && !m.head.begunOnce).length

/-- A matrix-operand trap. -/
def mBad (c : Bool) (v : Word) : List Check := failIf c (trapCheck cMatrixOperand v)
def poisonBad (v : SReg) : List Check := failIf v.poison (trapCheck cPoison v.val)

/-- The checks of R102 in order, then the sync register's, then the queue's. -/
def mChecks (s : State) (f : MSlot) (own : List (List Check)) : List Check :=
  firstOf (own ++ [s.cur.syncFails (s.cur.syncReg f.sy.toNat), failIf s.curTile.mFull (holdCheck .matrixBusy 3)])

/-- A slot is not claimed by the issuing context (R92). -/
def claimBad (s : State) (slot : Nat) : List Check :=
  mBad (FMap.get? s.curTile.claims slot != some s.issue.ctx) (BitVec.ofNat 64 slot)

/-- The command a slot gives the engine. -/
def mkM (s : State) (f : MSlot) (op : MOp) : MCmd :=
  { head := s.mkHead 5 f.sy.toNat, op := op, ar := f.ar.toNat, ot := f.ot.toNat, os := f.os.toNat
    a := (s.plainOp f.sa).val, b := (s.plainOp f.sb).val, entry := s.pre.entryIndex
    loader := s.curTile.loaders - 1, hasSet := 0 < s.curTile.loaders }

/-- A matrix command's plan: its checks, and its acceptance after what it does at commit. -/
def mPlan (f : MSlot) (op : MOp) (own : State → List (List Check)) (commit : State → State := id) :
    State → Host.Outcome State Fault Refusal :=
  issueOp fun s => { checks := mChecks s f (own s), act := fun s => (commit s).acceptM (mkM s f op) }

/-- A loader command's number is the tile's count of them (R90). -/
def mPlanLoad (f : MSlot) (op : MOp) (own : State → List (List Check)) (segs : State → List Seg) :
    State → Host.Outcome State Fault Refusal :=
  issueOp fun s =>
    { checks := mChecks s f (own s)
      act := fun s =>
        let m := { mkM s f op with loader := s.curTile.loaders, hasSet := true, segs := segs s }
        (s.modCurTile fun x => { x with loaders := x.loaders + 1 }).acceptM m }

/-- WLOAD (R105). -/
def execWload (f : MSlot) : State → Host.Outcome State Fault Refusal :=
  mPlanLoad f .wload (fun s => [claimBad s f.os.toNat, claimBad s f.ot.toNat]) fun _ => []

/-- A layout that WLOADW may read (R106): in this die's weight store, readable. -/
def layoutLoads (s : State) (y : Layout) : Bool := y.space == 1 && y.canRead && bits y.va 33 32 == dieOf s.issue.tile

/-- Pages of a layout under a key slot that is not usable raise the access-permission trap (12 R332; log 89). -/
def State.keysBad (s : State) (segs : List Seg) : List Check :=
  match segs.find? fun g => !s.keyUsable g.key s.cur.tenant.toNat with
  | some g => [trapCheck cPermission (BitVec.ofNat 64 g.va)]
  | none => []

/-- WLOADW (R106). -/
def execWloadw (f : MSlot) : State → Host.Outcome State Fault Refusal :=
  mPlanLoad f .wloadw
    (fun s =>
      let h := s.plainOp f.sa
      let c := s.plainOp f.sb
      let x := c.val.toNat
      let ofs := bits x 31 0
      let pitch := bits x 47 32
      let rnd := bits x 50 48
      [poisonBad h, poisonBad c, mBad (bits x 63 52 != 0 || (rnd != 0 && rnd != 4)) c.val,
        (match s.cur.layoutOf h.val with
          | none => mBad true h.val
          | some (_, y) =>
            firstOf [mBad (!layoutLoads s y) h.val,
              mBad (ofs % 2 != 0 || pitch % 2 != 0 || pitch < 256 || y.len < ofs + 127 * pitch + 256) c.val]),
        (if bitAt x 51 then claimBad s f.os.toNat else []),
        (match s.cur.layoutOf h.val with
          | some (_, y) => s.keysBad (cutSegs y.segs ofs (127 * pitch + 256))
          | none => [])])
    fun s => match s.cur.layoutOf (s.plainOp f.sa).val with
      | some (_, y) => y.segs
      | none => []

/-- The checks of a STREAM (R107): control word, rows of the slot, accumulator rows (the row number R102 records is AR; log 79),
claims. -/
def streamChecks (f : MSlot) (tr : Bool) (s : State) : List (List Check) :=
  let c := s.plainOp f.sa
  let x := c.val.toNat
  let cnt := bits x 6 0 + 1
  [poisonBad c, mBad (bits x 63 23 != 0 || bitAt x 15 || bitAt x 7) c.val,
    mBad (127 < bits x 14 8 + (cnt - 1) * (bits x 22 16 + 1)) c.val,
    mBad (1023 < f.ar.toNat + cnt - 1) (BitVec.ofNat 64 f.ar.toNat),
    claimBad s f.os.toNat, (if tr then [] else claimBad s f.ot.toNat)]

/-- STREAM.add (R107). -/
def execStreamAdd (f : MSlot) : State → Host.Outcome State Fault Refusal := mPlan f (.stream false false) (streamChecks f false)
/-- STREAM.ovw (R107). -/
def execStreamOvw (f : MSlot) : State → Host.Outcome State Fault Refusal := mPlan f (.stream false true) (streamChecks f false)
/-- STREAM.t.add (R107). -/
def execStreamTAdd (f : MSlot) : State → Host.Outcome State Fault Refusal := mPlan f (.stream true false) (streamChecks f true)
/-- STREAM.t.ovw (R107). -/
def execStreamTOvw (f : MSlot) : State → Host.Outcome State Fault Refusal := mPlan f (.stream true true) (streamChecks f true)

/-- The checks of a DRAIN (R109), in the order of R102; of rows past 1,023 TRAPADDR holds AR, and of two poisoned operands the first (log
79). -/
def drainChecks (f : MSlot) (rdw : Bool) (s : State) : List (List Check) :=
  let a := s.plainOp f.sa
  let c := s.plainOp f.sb
  let x := c.val.toNat
  let n := bits x 9 0 + 1
  let omd := bitAt x 16
  [poisonBad a, poisonBad c,
    mBad (bits x 15 10 != 0 || bits x 47 18 != 0 || (!rdw && bits x 63 48 != 0) || (rdw && omd)) c.val,
    mBad (1023 < f.ar.toNat + n - 1) (BitVec.ofNat 64 f.ar.toNat),
    (if omd then firstOf [mBad (128 < n) c.val, claimBad s f.os.toNat]
     else mBad (a.val.toNat % 64 != 0 || scratchLimit ≤ a.val.toNat || (rdw && scratchLimit < a.val.toNat + 3072 * n)) a.val)]

/-- DRAIN (R109). -/
def execDrain (f : MSlot) : State → Host.Outcome State Fault Refusal := mPlan f (.drain false) (drainChecks f false)
/-- DRAIN.rdw (R109). -/
def execDrainRdw (f : MSlot) : State → Host.Outcome State Fault Refusal := mPlan f (.drain true) (drainChecks f true)

/-- ACCCLR (R110); of rows past 1,023 TRAPADDR holds AR (log 79). -/
def execAccclr (f : MSlot) : State → Host.Outcome State Fault Refusal :=
  mPlan f .accclr fun s =>
    let c := s.plainOp f.sa
    let n := bits c.val.toNat 9 0 + 1
    [poisonBad c, mBad (bits c.val.toNat 63 10 != 0) c.val, mBad (1023 < f.ar.toNat + n - 1) (BitVec.ofNat 64 f.ar.toNat)]

/-- ANCHOR (R111). -/
def execAnchor (f : MSlot) : State → Host.Outcome State Fault Refusal :=
  mPlan f .anchor fun s =>
    let a := s.plainOp f.sa
    [poisonBad a, mBad (a.val.toInt < -32768 || 32767 < a.val.toInt) a.val]

/-- OCLAIM (R112): the claims are made at commit. -/
def execOclaim (f : MSlot) : State → Host.Outcome State Fault Refusal :=
  let slots := rangeFrom f.os.toNat (f.ot.toNat + 1 - f.os.toNat)
  mPlan f .oclaim
    (fun s => slots.map fun i =>
      mBad (match FMap.get? s.curTile.claims i with | some c => c != s.issue.ctx | none => false) (BitVec.ofNat 64 i))
    fun s => s.modCurTile fun x => { x with claims := slots.foldl (fun m i => FMap.insert m i s.issue.ctx) x.claims }

/-- ORELEASE (R112). -/
def execOrelease (f : MSlot) : State → Host.Outcome State Fault Refusal := mPlan f .orelease fun _ => []

/-- FMTSEL (R113): FMTSEL is written at commit. -/
def execFmtsel (f : MSlot) : State → Host.Outcome State Fault Refusal :=
  mPlan f .fmtsel
    (fun s =>
      let a := s.plainOp f.sa
      if f.ot.toNat % 2 = 1 then [poisonBad a, mBad (a.val.toNat % 8 != 0 || scratchLimit ≤ a.val.toNat) a.val] else [])
    fun s => s.modCur fun k => { k with fmtsel := BitVec.ofNat 4 f.os.toNat }

/-- ACCPIN (R114): the pins are made at commit. A region that another context pinned is recorded by its first row (log 79). -/
def execAccpin (f : MSlot) : State → Host.Outcome State Fault Refusal :=
  let regs := rangeFrom (f.ar.toNat / 16) (f.os.toNat + 1)
  mPlan f (.accpin false)
    (fun s => regs.map fun i =>
      mBad (match FMap.get? s.curTile.pins i with | some c => c != s.issue.ctx | none => false) (BitVec.ofNat 64 (16 * i)))
    fun s => s.modCurTile fun x => { x with pins := regs.foldl (fun m i => FMap.insert m i s.issue.ctx) x.pins }

/-- ACCPIN.clr (R114). -/
def execAccpinClr (f : MSlot) : State → Host.Outcome State Fault Refusal := mPlan f (.accpin true) fun _ => []

end Sys2Proof.Machine
end

