-- ==== Sys2Proof/Machine/LSlot.lean ====
section
/-! DEFINITION. The L-slot forms (06 R164 to R166; 09 R230 to R236): scratchpad loads and stores, vector loads and stores,
accumulator accesses on the issuing tile and over the mesh, releases and acquires. -/

namespace Sys2Proof.Machine

/-! ### Holds -/

/-- The first byte of a command's writes to a tile's scratchpad, and its end, when it writes there. -/
def XCmd.scratchDest (x : XCmd) (t : Nat) : Option (Nat × Nat) :=
  match x.writes.find? fun g => g.space == .scratch t with
  | some g => some (g.off, g.off + g.len)
  | none => none

/-- The end of the run of written bytes that goes on from an address. -/
def runEnd (wrote : List (Nat × Nat)) : Nat → Nat → Nat
  | 0, a => a
  | fuel + 1, a =>
    match wrote.find? fun w => w.1 ≤ a && a < w.1 + w.2 with
    | some w => runEnd wrote fuel (w.1 + w.2)
    | none => a

/-- The watermark of a channel's watched range (R229). -/
def Tile.watermark (x : Tile) (t ch rb re : Nat) : Nat :=
  match x.xq.find? fun y => y.ch == ch && (match y.scratchDest t with | some (a, b) => overlaps a (b - a) rb (re - rb) | none => false) with
  | none => re
  | some y =>
    match y.scratchDest t with
    | some (a, _) => min re (runEnd y.wrote (y.wrote.length + 1) (max rb a))
    | none => re

/-- Bytes that a watermark holds back (08 R207): in some watched range of the tile, at or above its watermark. -/
def Tile.heldBytes (x : Tile) (t a n : Nat) : Bool :=
  x.ctxs.any fun k => k.2.watched.any fun w =>
    let wm := x.watermark t w.1 w.2.1 w.2.2
    overlaps a n wm (w.2.2 - wm)

/-- The watermark hold of an access (Table 10.2, reason 1). -/
def waterCheck (s : State) (a n : Nat) : List Check :=
  failIf (s.curTile.heldBytes s.issue.tile a n) (holdCheck .watermark 1 0 a)

/-- Every access that program order places before a context's release is performed (08 R211). -/
def State.released (s : State) (t c : Nat) : Bool :=
  let x := s.tile t
  !(s.mesh.any fun r => r.tile == t && r.ctx == c) && !(x.mq.any fun m => m.head.ctx == c)
    && !(x.xq.any fun y => y.head.ctx == c && y.holdsRelease)

/-- A release that must wait (08 R211, reason 4). -/
def releaseCheck (s : State) (rel : Bool) : List Check :=
  failIf (rel && !s.released s.issue.tile s.issue.ctx) (holdCheck .watermark 4)

/-- An acquire not performed yet holds the context's later L-slot bundles (08 R211). -/
def acquireCheck (s : State) : List Check :=
  failIf ((s.curTile.xq.any fun y => y.head.ctx == s.issue.ctx && y.acquires && !(y.far && s.cur.farAcq.isSome))
      || s.curTile.mq.any fun m => m.head.ctx == s.issue.ctx && strong m.segs) (holdCheck .watermark 4)

/-! ### Scratchpad forms (R231) -/

/-- The address of a scratchpad or vector form: a + SignExtend(OFF14). -/
def lAddr (a : Word) (f : LSlot) : Word := a + f.off.signExtend 64

/-- Alignment, then range, then what holds the access. -/
def scratchChecks (s : State) (x : Word) (w : Nat) : List (List Check) :=
  [failIf (x.toNat % w != 0) (trapCheck cAlignment x), failIf (scratchLimit < x.toNat + w) (trapCheck cAddressRange x),
    waterCheck s x.toNat w]

/-- A load of w bytes (R231), with acquire ordering or without (R236). -/
def lLoad (f : LSlot) (w : Nat) (signed acq : Bool) : State → Host.Outcome State Fault Refusal :=
  issueOp fun s =>
    let a := s.plainOp f.sa
    let x := lAddr a.val f
    let bs := s.curTile.scratch.read x.toNat w
    let v := bytesVal bs
    guarded s f.g f.gn []
      { checks := firstOf (acquireCheck s :: failIf a.poison (trapCheck cPoison x) :: scratchChecks s x w
          ++ [failIf (acq && bytesPoison bs) (trapCheck cPoisonSync x)])
        results := [⟨4, .scalar f.t.toNat { val := if signed then BitVec.ofInt 64 (signExt v (8 * w)) else BitVec.ofNat 64 v
                                            poison := bytesPoison bs }, 0⟩]
        banks := banksOf x.toNat w
        bankAddr := x }

/-- A store of w bytes (R231), with release ordering or without. -/
def lStore (f : LSlot) (w : Nat) (rel : Bool) : State → Host.Outcome State Fault Refusal :=
  issueOp fun s =>
    let a := s.plainOp f.sa
    let b := s.plainOp f.sb
    let x := lAddr a.val f
    guarded s f.g f.gn []
      { checks := firstOf (acquireCheck s :: failIf (a.poison || (rel && b.poison)) (trapCheck cPoison x) :: scratchChecks s x w
          ++ [releaseCheck s rel])
        banks := banksOf x.toNat w
        bankAddr := x
        act := fun s => s.modCurTile fun y =>
          { y with scratch := y.scratch.write x.toNat (valBytes w (b.val.toNat % 2 ^ (8 * w)) b.poison) } }

/-- LD.i8 (R231). -/
def execLdI8 (f : LSlot) : State → Host.Outcome State Fault Refusal := lLoad f 1 true false
/-- LD.n8 (R231). -/
def execLdN8 (f : LSlot) : State → Host.Outcome State Fault Refusal := lLoad f 1 false false
/-- LD.i16 (R231). -/
def execLdI16 (f : LSlot) : State → Host.Outcome State Fault Refusal := lLoad f 2 true false
/-- LD.n16 (R231). -/
def execLdN16 (f : LSlot) : State → Host.Outcome State Fault Refusal := lLoad f 2 false false
/-- LD.i32 (R231). -/
def execLdI32 (f : LSlot) : State → Host.Outcome State Fault Refusal := lLoad f 4 true false
/-- LD.n32 (R231). -/
def execLdN32 (f : LSlot) : State → Host.Outcome State Fault Refusal := lLoad f 4 false false
/-- LD.64 (R231). -/
def execLd64 (f : LSlot) : State → Host.Outcome State Fault Refusal := lLoad f 8 false false
/-- LD.n32.acq (R230, R236). -/
def execLdN32Acq (f : LSlot) : State → Host.Outcome State Fault Refusal := lLoad f 4 false true
/-- LD.64.acq (R230, R236). -/
def execLd64Acq (f : LSlot) : State → Host.Outcome State Fault Refusal := lLoad f 8 false true
/-- ST.8 (R231). -/
def execSt8 (f : LSlot) : State → Host.Outcome State Fault Refusal := lStore f 1 false
/-- ST.16 (R231). -/
def execSt16 (f : LSlot) : State → Host.Outcome State Fault Refusal := lStore f 2 false
/-- ST.32 (R231). -/
def execSt32 (f : LSlot) : State → Host.Outcome State Fault Refusal := lStore f 4 false
/-- ST.64 (R231). -/
def execSt64 (f : LSlot) : State → Host.Outcome State Fault Refusal := lStore f 8 false
/-- ST.32.rel (R230, 08 R211). -/
def execSt32Rel (f : LSlot) : State → Host.Outcome State Fault Refusal := lStore f 4 true
/-- ST.64.rel (R230, 08 R211). -/
def execSt64Rel (f : LSlot) : State → Host.Outcome State Fault Refusal := lStore f 8 true

/-! ### Vector loads and stores (06 R164, R165) -/

/-- The four chunks from x with a stride. -/
def chunksOf (x stride : Word) : List Nat := (List.range 4).map fun q => (x + BitVec.ofNat 64 q * stride).toNat

/-- The checks of R164 in order, then the watermarks (R166). -/
def vmemChecks (s : State) (x : Word) (poison strided : Bool) (stride : Word) : List (List Check) :=
  let cs := chunksOf x stride
  [acquireCheck s, failIf poison (trapCheck cPoison x),
    failIf (x.toNat % 64 != 0 || stride.toNat % 64 != 0) (trapCheck cAlignment x),
    failIf (cs.any fun c => scratchLimit < c + 64) (trapCheck cAddressRange x),
    failIf (strided && (cs.map bankOf).eraseDups.length < 4) (trapCheck cBankConflict x)]
    ++ cs.map fun c => waterCheck s c 64

/-- Stride of a form: SB in the strided forms, else 64. -/
def vmemStride (s : State) (f : LSlot) (strided : Bool) : SReg := if strided then s.plainOp f.sb else { val := 64 }

/-- The lanes that four chunks of bytes give: little-endian, poisoned when any byte is. -/
def lanesOf (bs : List (Byte × Bool)) : List LaneVal :=
  (List.range 64).map fun l =>
    let b := (bs.drop (4 * l)).take 4
    { val := BitVec.ofNat 32 (bytesVal b), poison := bytesPoison b }

/-- The bytes of lanes, each with its lane's poison. -/
def laneBytes (v : VReg) : List (Byte × Bool) := (List.range 64).flatMap fun l => valBytes 4 (v.lane l).val.toNat (v.lane l).poison

/-- A vector load (R165). -/
def vLoad (f : LSlot) (strided : Bool) : State → Host.Outcome State Fault Refusal :=
  issueOp fun s =>
    let a := s.plainOp f.sa
    let st := vmemStride s f strided
    let x := lAddr a.val f
    let cs := chunksOf x st.val
    guarded s f.g f.gn [.vec f.t.toNat 1]
      { checks := firstOf (vmemChecks s x (a.poison || st.poison) strided st.val)
        results := [⟨5, .vector (s.cur.veff f.t.toNat) ((lanesOf (cs.flatMap fun c => s.curTile.scratch.read c 64)).map some), 0⟩]
        banks := cs.map bankOf
        bankAddr := x }

/-- A vector store (R165). -/
def vStore (f : LSlot) (strided : Bool) : State → Host.Outcome State Fault Refusal :=
  issueOp fun s =>
    let a := s.plainOp f.sa
    let st := vmemStride s f strided
    let x := lAddr a.val f
    let cs := chunksOf x st.val
    let bs := laneBytes (s.cur.vreg (s.cur.veff f.t.toNat))
    guarded s f.g f.gn [.vec f.t.toNat 1]
      { checks := firstOf (vmemChecks s x (a.poison || st.poison) strided st.val)
        banks := cs.map bankOf
        bankAddr := x
        act := fun s => s.modCurTile fun y =>
          { y with scratch := (List.range 4).foldl (fun m q => m.write (cs.getD q 0) ((bs.drop (64 * q)).take 64)) y.scratch } }

/-- VLD (R164). -/
def execVld (f : LSlot) : State → Host.Outcome State Fault Refusal := vLoad f false
/-- VLDS (R164). -/
def execVlds (f : LSlot) : State → Host.Outcome State Fault Refusal := vLoad f true
/-- VST (R164). -/
def execVst (f : LSlot) : State → Host.Outcome State Fault Refusal := vStore f false
/-- VSTS (R164). -/
def execVsts (f : LSlot) : State → Host.Outcome State Fault Refusal := vStore f true

/-! ### Accumulator forms (R232 to R235) -/

/-- The address of an accumulator form: a + 8·SignExtend(OFF14). -/
def aAddr (a : Word) (f : LSlot) : Word := a + 8 * f.off.signExtend 64

/-- The tile and entry an address names, or the check it fails (R232). -/
def accTarget (s : State) (x : Word) : Except Check (Nat × Nat) :=
  if x.toNat % 8 != 0 then .error (trapCheck cAlignment x)
  else if x.toNat < 0x100000 then .ok (s.issue.tile, x.toNat / 8)
  else
    match GAddr.ofWord x with
    | some (.window gr gx gy tnum 1 off) =>
      match s.windowTile s.cur x gr gx gy tnum with
      | .ok t => .ok (t, off / 8)
      | .error c => .error c
    | _ => .error (trapCheck cGlobalAddress x)

/-- What an access makes of an entry: the new entry when it writes, the value that lands, and the flag of a clamping add (R233). -/
def accAccess (op : AccOp) (e : AccEntry) (b : SReg) : Option AccEntry × SReg × Flags :=
  let old : SReg := { val := e.val, poison := e.poison }
  match op with
  | .lda => (none, old, 0#6)
  | .sta => (some { val := b.val, sat := false, poison := b.poison }, old, 0#6)
  | .aadd =>
    if e.poison then (none, old, 0#6)
    else
      let (v, c) := sat64 (e.val.toInt + b.val.toInt)
      (some { val := BitVec.ofInt 64 v, sat := e.sat || c, poison := b.poison }, old, flagIf c flSAT)
  | .aswp => if e.poison then (none, old, 0#6) else (some { val := b.val, sat := false, poison := b.poison }, old, 0#6)

/-- The access performed at an entry of a tile. -/
def Tile.accPerform (x : Tile) (op : AccOp) (entry : Nat) (b : SReg) : Tile :=
  match (accAccess op (FMap.getD x.acc entry {}) b).1 with
  | some e => { x with acc := FMap.setD x.acc entry e {} }
  | none => x

def AccOp.lands : AccOp → Bool
  | .sta => false
  | _ => true
def AccOp.atomic : AccOp → Bool
  | .aadd | .aswp => true
  | _ => false

/-- L of Table 9.5. -/
def AccOp.lat : AccOp → Nat
  | .lda => 6
  | _ => 8

/-- Cycles one way to another tile: hops and die crossings (R234). -/
def meshWay (a b : Nat) : Nat := hops a b + 12 * crossings a b

/-! ### Requests on the mesh (R234) -/

/-- The die links that untimed traffic takes from one die to another, column first (01 R11). -/
def diePath (a b : Nat) : List (Nat × Nat) :=
  let mid := 2 * (a / 2) + b % 2
  (if a % 2 = b % 2 then [] else [(a, mid)]) ++ (if a / 2 = b / 2 then [] else [(mid, b)])

/-- No link on the way is down: traffic to a down link waits (13 R366). A fenced die needs none to be found gone (13 R369). -/
def State.wayUp (s : State) (a b : Nat) : Bool :=
  (s.die b).fenced || (diePath a b).all fun p => !(s.die p.1).downLinks.contains p.2

/-- Nothing at its target keeps a request: links are up, the tile is not in scrub (12 R330), its region is free. -/
def State.meshOpen (s : State) (r : MeshReq) : Bool :=
  s.wayUp (dieOf r.tile) (dieOf r.target) && (!r.op.lands || s.wayUp (dieOf r.target) (dieOf r.tile))
    && (FMap.get? s.scrubs r.target).isNone && !(s.tile r.target).regionBusy (r.row / 16)

/-- A request can be performed in its time: it has reached its tile, nothing there keeps it, and no earlier access of its context to the
entry is on the way. -/
def State.meshReady (s : State) (r : MeshReq) : Bool :=
  r.arrive ≤ s.tickOf r.tile && s.meshOpen r
    && !(s.mesh.any fun q => q.id < r.id && q.tile == r.tile && q.ctx == r.ctx && q.target == r.target && q.row == r.row && q.col == r.col
        && q.backAt.isNone)

/-- The value of a request that has been performed goes into its landing: in the nominal cycle, or late through a free port. -/
def Landing.back (l : Landing) (due : Nat) (v : SReg) (f : Flags) : Landing :=
  let n := l.nominal.getD due
  { l with
    due := max n due
    waits := false
    free := n < due
    flags := f
    dest := match l.dest with
      | .scalar d _ => .scalar d v
      | d => d }

/-- What a request brings back, and the flag of a clamping add; from a fenced tile a free poisoned value without a flag (13 R369; log
26). -/
def State.meshGot (s : State) (r : MeshReq) : SReg × Flags :=
  if (s.die (dieOf r.target)).fenced then ({ val := BitVec.ofNat 64 (Config.freeNat s.free), poison := true }, 0#6)
  else (accAccess r.op (FMap.getD (s.tile r.target).acc (128 * r.row + r.col) {}) r.data).2

/-- The landing that a performed request serves. -/
def MeshReq.serve (r : MeshReq) (now : Nat) (got : SReg × Flags) (l : Landing) : Landing :=
  if l.waits && l.id = r.id then l.back (now + (r.lat - 1) + r.way) got.1 got.2 else l

/-- Perform a request at its entry; a fenced tile keeps nothing (13 R369; log 26). -/
def State.meshPerform (s : State) (r : MeshReq) : State :=
  let now := s.tickOf r.tile
  let got := s.meshGot r
  let s := if (s.die (dieOf r.target)).fenced then { s with free := s.free + 1 }
    else s.modTile r.target fun x => x.accPerform r.op (128 * r.row + r.col) r.data
  if r.far then
    { s with mesh := s.mesh.map fun q => if q.id = r.id then
        { q with backAt := some (now + r.way), got := (got.1.val, got.1.poison, got.2) } else q }
  else
    ({ s with mesh := s.mesh.filter fun q => q.id != r.id } : State).modCtx r.tile r.ctx fun k =>
      { k with inflight := k.inflight.map (r.serve now got) }

/-- The mesh in a cycle of a die: each request of its tiles that can be performed is, unless traffic delays it (R234, log 27). -/
def State.meshCycle (s : State) (d : Nat) : State :=
  (s.mesh.filter fun r => dieOf r.tile == d && r.backAt.isNone).foldl (fun s r =>
    if s.meshReady r then
      let (delay, s) := s.flip
      if delay then s else s.meshPerform r
    else s) s

/-- The requests of the context in issue that are not performed. -/
def State.ownMesh (s : State) : List MeshReq := s.mesh.filter fun r => r.tile == s.issue.tile && r.ctx == s.issue.ctx && r.backAt.isNone

/-- A bundle with a release or an F command has its context's requests performed at its commit, its own among them: R234 gives the cycle by
which a request is performed at the latest, and 08 R205 and R211 place it before what the bundle's C and F slots do (log 87). -/
def State.settleMesh (s : State) : State :=
  s.ownMesh.foldl (fun s r =>
    if s.meshOpen r then
      let got := s.meshGot r
      (s.meshPerform r).modIssue fun i => { i with lands := i.lands.map fun l => (l.1, r.serve s.now got l.2) }
    else s) s

/-- A release of a bundle waits while what the bundle's own access is sent to keeps it (08 R211). -/
def ownCheck (s : State) (rel : Bool) : List Check :=
  failIf (rel && (match s.issue.sent with | some r => !s.meshOpen r | none => false)) (holdCheck .watermark 4)

/-- An F command waits while what its context's accesses are sent to keeps them (08 R205), but SEND never does (10 R274). -/
def meshCheck (s : State) (op : FOp) : List Check :=
  failIf (op != .send && (s.ownMesh ++ s.issue.sent.toList).any fun r => !s.meshOpen r) (holdCheck .matrixBusy 2)

/-! ### The plans of the accumulator forms -/

/-- An access to an entry of the issuing tile (R233, 04 R95). -/
def accLocal (s : State) (f : LSlot) (op : AccOp) (x : Word) (entry : Nat) (b : SReg) (acq rel : Bool) : Plan :=
  let e := FMap.getD s.curTile.acc entry {}
  let r := accAccess op e b
  { checks := firstOf [failIf (s.curTile.regionBusy (entry / 2048)) (holdCheck .matrixBusy 2), releaseCheck s rel,
      failIf (acq && e.poison) (trapCheck cPoisonSync x)]
    results := if op.lands then [⟨op.lat, .scalar f.t.toNat r.2.1, r.2.2⟩] else []
    nonRep := op.atomic
    act := fun s => s.modCurTile fun y => y.accPerform op entry b }

/-- An access sent to another tile (R234): it lands when it is back, in its nominal cycle or later. -/
def accRemote (s : State) (f : LSlot) (op : AccOp) (t entry : Nat) (b : SReg) (rel : Bool) : Plan :=
  let way := meshWay s.issue.tile t
  let r : MeshReq :=
    { id := s.nextId, tile := s.issue.tile, ctx := s.issue.ctx, lat := op.lat, target := t, row := entry / 128, col := entry % 128
      op := op, data := b, arrive := s.now + 1 + way, way := way }
  { checks := releaseCheck s rel
    farResults := if op.lands then [⟨op.lat + 2 * way, .scalar f.t.toNat {}, 0⟩] else []
    nonRep := op.atomic
    sends := some r
    act := fun s =>
      ({ s with mesh := s.mesh ++ [r] } : State).bump.modIssue fun i =>
        { i with lands := i.lands.map fun l => if l.2.waits then (l.1, { l.2 with id := r.id }) else l } }

/-- A far acquire of another bundle, which a watchdog trap left behind, is dropped once it is back (log 28). -/
def State.farOther (s : State) (q : FarAcquire) : List Check := failIf (q.pc != s.issue.pc) (holdCheck .watermark 4 0 0 .farOver)

/-- A far acquire (R235, R236): it stands alone, departs once, and commits when it is back. It does not depart while T is held (R234). What
it lands is no exposed-latency result for 02 R37 (log 86). -/
def accFar (s : State) (f : LSlot) (op : AccOp) (x : Word) (t entry : Nat) (b : SReg) (rel : Bool) : Plan :=
  let alone := failIf (!(s.issue.alone && s.issue.zeroHdr)) (trapCheck cIllegalSchedule 0)
  let breach := failIf s.cur.inFtr (breachCheck 4)
  match s.cur.farAcq with
  | none =>
    { checks := firstOf [failIf (op.lands && (s.cur.heldAt s.now).contains f.t.toNat) (holdCheck .matrixBusy 2 0 0 .none phSchedule), alone,
        breach, releaseCheck s rel,
        [holdCheck .watermark 4 0 0 (.farDepart t (entry / 128) (entry % 128) op b (meshWay s.issue.tile t))]] }
  | some q =>
    match q.back with
    | none => { checks := [holdCheck .watermark 4] }
    | some (v, p, fl) =>
      { checks := firstOf [s.farOther q, failIf p (trapCheck cPoisonSync x phOther .farOver)]
        freeResults := [⟨1, .scalar f.t.toNat { val := v }, fl⟩]
        nonRep := op.atomic
        act := fun s => s.modCur fun k => { k with farAcq := none } }

/-- An accumulator form (R232 to R235). -/
def lAcc (f : LSlot) (op : AccOp) (acq rel : Bool) : State → Host.Outcome State Fault Refusal :=
  issueOp fun s =>
    let a := s.plainOp f.sa
    let b := s.plainOp f.sb
    let x := aAddr a.val f
    guarded s f.g f.gn [] <|
      match firstOf [acquireCheck s, failIf (a.poison || (rel && b.poison)) (trapCheck cPoison x)] with
      | c :: _ => { checks := [c] }
      | [] =>
        match accTarget s x with
        | .error c => { checks := [c] }
        | .ok (t, entry) =>
          if t = s.issue.tile then accLocal s f op x entry b acq rel
          else if acq then accFar s f op x t entry b rel
          else accRemote s f op t entry b rel

/-- LDA (R233). -/
def execLda (f : LSlot) : State → Host.Outcome State Fault Refusal := lAcc f .lda false false
/-- LDA.acq (R233, R235). -/
def execLdaAcq (f : LSlot) : State → Host.Outcome State Fault Refusal := lAcc f .lda true false
/-- STA (R233). -/
def execSta (f : LSlot) : State → Host.Outcome State Fault Refusal := lAcc f .sta false false
/-- STA.rel (R233). -/
def execStaRel (f : LSlot) : State → Host.Outcome State Fault Refusal := lAcc f .sta false true
/-- AADD (R233). -/
def execAadd (f : LSlot) : State → Host.Outcome State Fault Refusal := lAcc f .aadd false false
/-- AADD.acq (R233, R235). -/
def execAaddAcq (f : LSlot) : State → Host.Outcome State Fault Refusal := lAcc f .aadd true false
/-- AADD.rel (R233). -/
def execAaddRel (f : LSlot) : State → Host.Outcome State Fault Refusal := lAcc f .aadd false true
/-- AADD.ar (R233, R235). -/
def execAaddAr (f : LSlot) : State → Host.Outcome State Fault Refusal := lAcc f .aadd true true
/-- ASWP (R233). -/
def execAswp (f : LSlot) : State → Host.Outcome State Fault Refusal := lAcc f .aswp false false
/-- ASWP.acq (R233, R235). -/
def execAswpAcq (f : LSlot) : State → Host.Outcome State Fault Refusal := lAcc f .aswp true false
/-- ASWP.rel (R233). -/
def execAswpRel (f : LSlot) : State → Host.Outcome State Fault Refusal := lAcc f .aswp false true
/-- ASWP.ar (R233, R235). -/
def execAswpAr (f : LSlot) : State → Host.Outcome State Fault Refusal := lAcc f .aswp true true

end Sys2Proof.Machine
end

