-- ==== Sys2Proof/Machine/Hub.lean ====
section
/-! DEFINITION. What the hub keeps for launches: launch semaphores, notices, the end of a launch's members (11 R282, R285, R292;
12 Table 12.5). -/

namespace Sys2Proof.Machine

/-- The package sends something out. -/
def State.send (s : State) (m : Sent) : State := { s with outbox := s.outbox ++ [m] }

/-- Kinds of what the package sends: an event notice, a management reply, an RDMA answer, a launch status, a message to a remote
package, a beacon, a refusal of a full queue, a stretch request, a timed beat, a replay of flits. -/
def sNotice : Nat := 0
def sReply : Nat := 1
def sRdma : Nat := 2
def sLaunch : Nat := 3
def sRemote : Nat := 4
def sBeacon : Nat := 5
def sNak : Nat := 6
def sStretch : Nat := 7
def sBeat : Nat := 8
def sReplay : Nat := 9

/-- A SEND on every event queue pair of some tenants (12 Table 12.5). -/
def State.notify (s : State) (kind : Nat) (tenants : List Nat) (nums : List Nat) (bytes : List Byte) : State :=
  (s.pairs.filter fun p => p.2.cls == 3 && tenants.contains p.2.tenant).foldl
    (fun s p => s.send { kind := kind, dest := p.1, nums := nums, bytes := bytes }) s

/-! ### Counted errors (17 R395) -/

/-- A 32-bit counter that saturates. -/
def count32 (n : Nat) : Nat := min (n + 1) 0xFFFFFFFF

/-- A die counts an error of a store kind; an uncorrectable one is told to tenant 0's event pairs (17 R395). -/
def State.countError (s : State) (d kind : Nat) (bad : Bool) (addr : Nat) : State :=
  let s := s.modDie d fun x =>
    let n := FMap.getD x.errors kind (0, 0)
    { x with errors := FMap.insert x.errors kind (if bad then (n.1, count32 n.2) else (count32 n.1, n.2)) }
  if bad then
    s.notify sNotice [0] [] ([BitVec.ofNat 8 d, BitVec.ofNat 8 kind] ++ List.replicate 6 0 ++ toBytes 8 addr ++ List.replicate 48 0)
  else s

/-! ### Launch semaphores (R282) -/

def State.lsem (s : State) (i : Nat) : LaunchSem := FMap.getD s.lsems i {}
def State.setLsem (s : State) (i : Nat) (m : LaunchSem) : State := { s with lsems := FMap.setD s.lsems i m {} }

/-- An addition of 1 saturates, and one that saturates sets the error bit. -/
def LaunchSem.bump (m : LaunchSem) : LaunchSem :=
  if m.count = 0xFFFFFFFF then { m with err := true } else { m with count := m.count + 1 }

/-! ### Records (Table 11.1) -/

def recField (r : BitVec 512) (hi lo : Nat) : Nat := bits r.toNat hi lo

structure Rec where
  argEn : Bool
  argA : Nat
  wdog : Nat
  chunk : Nat
  hpcnt : Nat
  hpbase : Nat
  phcnt : Nat
  phbase : Nat
  dieMask : Nat
  w1thr : Nat
  w0thr : Nat
  sigEn : Bool
  w1En : Bool
  w0En : Bool
  sig : Nat
  w1 : Nat
  w0 : Nat
  sup : Bool
  prio : Nat
  tenant : Nat
  arg1 : Nat
  arg0 : Nat
  ltab : Nat
  kimg : Nat

def Rec.ofBits (r : BitVec 512) : Rec :=
  { argEn := bitAt r.toNat 470, argA := recField r 469 448, wdog := recField r 447 440, chunk := recField r 439 424
    hpcnt := recField r 421 413, hpbase := recField r 412 405, phcnt := recField r 404 394, phbase := recField r 393 384
    dieMask := recField r 379 376, w1thr := recField r 375 344, w0thr := recField r 343 312, sigEn := bitAt r.toNat 310
    w1En := bitAt r.toNat 309, w0En := bitAt r.toNat 308, sig := recField r 307 296, w1 := recField r 295 284
    w0 := recField r 283 272, sup := bitAt r.toNat 271, prio := recField r 270 268, tenant := recField r 267 256
    arg1 := recField r 255 192, arg0 := recField r 191 128, ltab := recField r 127 64, kimg := recField r 63 0 }

/-- The reserved bits of a record. -/
def recReserved (r : BitVec 512) : Bool :=
  recField r 511 471 != 0 || recField r 423 422 != 0 || recField r 383 380 != 0 || bitAt r.toNat 311

/-! ### The end of a launch -/

def State.launch (s : State) (l : Nat) : Option Launch := FMap.get? s.launches l
def State.modLaunch (s : State) (l : Nat) (f : Launch → Launch) : State :=
  match s.launch l with
  | some x => { s with launches := FMap.insert s.launches l (f x) }
  | none => s

/-- The status word of a queue takes a code, and the event pairs of the tenant are told (R281, 12 Table 12.5). -/
def State.setStatus (s : State) (q tenant code : Nat) : State :=
  let y := FMap.getD s.queues q ({} : CommandQueue)
  ({ s with queues := FMap.insert s.queues q { y with status := code } } : State).notify sLaunch [tenant] [q, code] []

/-- A wait in force finds its error bit set (R281). -/
def State.waitError (s : State) (r : Rec) : Bool := (r.w0En && (s.lsem r.w0).err) || (r.w1En && (s.lsem r.w1).err)

/-- The queues whose head waits on a semaphore with its error bit set: each is judged at once, in the cycle in which the bit is taken
(R281). -/
def State.judgeHeads (s : State) : State :=
  let qs := (s.queues.filter fun q => match q.2.recs with | p :: _ => s.waitError (Rec.ofBits p.record) | [] => false).map (·.1)
  { s with agenda := qs.map (fun q => ⟨.launchHeadCheck, { id := q }⟩) ++ s.agenda }

/-- A launch semaphore takes its error bit. -/
def State.errLsem (s : State) (i : Nat) (m : LaunchSem) : State := (s.setLsem i { m with err := true }).judgeHeads

/-- The launch's SIG takes an error bit (R292, 13 R351). -/
def State.sigError (s : State) (l : Nat) : State :=
  match s.launch l with
  | some x =>
    let r := Rec.ofBits x.record
    if r.sigEn then s.errLsem r.sig (s.lsem r.sig) else s
  | none => s

/-- Nothing remains of a launch: no instance, no index to hand out (R285). -/
def Launch.over (x : Launch) : Bool :=
  x.insts.isEmpty && (x.aborted || (x.handed == x.indices && x.again.isEmpty && x.ranges.all fun r => r.2.isEmpty))

/-- The phasers of a launch go with it: none keeps a slot when every context has ended (R317). -/
def State.completeLaunch (s : State) (l : Nat) : State :=
  match s.launch l with
  | none => s
  | some x =>
    if !x.over then s
    else
      let r := Rec.ofBits x.record
      let s := { s with launches := FMap.erase s.launches l }
      let s := if r.sigEn then
          let m := (s.lsem r.sig).bump
          if x.aborted || m.err then s.errLsem r.sig m else s.setLsem r.sig m
        else s
      s.setStatus x.queue x.tenant (if x.aborted then 5 else 0)

/-- A member has ended; an instance ends with its last one, and the launch with its last instance (R285, R309). -/
def State.memberEnded (s : State) (l i r : Nat) : State :=
  match s.launch l with
  | none => s
  | some x =>
    match FMap.get? x.insts i with
    | none => s
    | some y =>
      let y := { y with ended := if y.ended.contains r then y.ended else r :: y.ended }
      if y.ended.length = x.members then
        ({ s with places := FMap.erase s.places i, launches := FMap.insert s.launches l { x with insts := FMap.erase x.insts i } } : State).completeLaunch l
      else { s with launches := FMap.insert s.launches l { x with insts := FMap.insert x.insts i y } }

end Sys2Proof.Machine
end

