-- ==== Sys2Proof/Machine/Recovery.lean ====
section
/-! DEFINITION. Recovery (13): results landing, engine faults taken, trap entry and parking, the fault queue, releasing and
discarding held commands, the end of a context. -/

namespace Sys2Proof.Machine

/-! ### Landing (05 R118, R119; 06 R141; 02 R38) -/

/-- A result lands in its register. -/
def Dest.land (d : Dest) (k : Ctx) : Ctx :=
  match d with
  | .scalar n v => k.setSreg n v
  | .pred n v => k.setPred n v
  | .mask n sel v =>
    let old := k.mreg n
    k.setMreg n { bits := (old.bits &&& ~~~sel) ||| (v.bits &&& sel), poison := (old.poison &&& ~~~sel) ||| (v.poison &&& sel) }
  | .vector n lanes =>
    let old := k.vreg n
    k.setVreg n ((List.range 64).map fun l => (lanes.getD l none).getD (old.lane l))
  | .csr _ _ => k

/-- A landing takes place: its value, its flags, and the trap that waits for it (13 R345). -/
def Ctx.take (k : Ctx) (l : Landing) (now : Nat) : Ctx :=
  let k := l.dest.land k
  { k with
    inflight := k.inflight.filter fun x => x.id != l.id
    vflags := k.vflags ||| l.flags
    pendingTrap := k.pendingTrap.map fun p => (p.1, now) }

/-- A landing of a context, a control-register write among them. -/
def State.land (s : State) (t c : Nat) (l : Landing) : State :=
  let now := s.tickOf t
  match l.dest with
  | .csr n v => (s.csrWrite t c n v).modCtx t c fun k => k.take l now
  | _ => s.modCtx t c fun k => k.take l now

/-- RESULT_LANDING (05 R118): a result lands in its cycle. -/
def execResultLanding (s : State) : Host.Outcome State Fault Refusal :=
  let t := s.focus.tile
  let c := s.focus.ctx
  match (s.ctx t c).inflight.find? fun l => l.id == s.focus.id with
  | none => .next s
  | some l => if l.due ≤ s.tickOf t && !l.waits && !l.free then .next (s.land t c l) else .next s

/-- The exposed scalar results of a context that land in a cycle. -/
def Ctx.portsUsed (k : Ctx) (now : Nat) : Nat := (k.inflight.filter fun l => l.exposed && l.due == now && l.dest.isScalar).length

/-- A late or engine value may take a write port in a cycle: one is free, and nothing exposed lands in its register then (02 R38). -/
def Ctx.portFree (k : Ctx) (now : Nat) (d : Dest) : Bool :=
  let taken := if k.latePorts.1 = now then k.latePorts.2.length else 0
  k.portsUsed now + taken < 4 && !(k.inflight.any fun l => l.exposed && l.due == now && l.dest.key == d.key)

/-- A late value takes a write port of the cycle. -/
def Ctx.usePort (k : Ctx) (now : Nat) (d : Dest) : Ctx :=
  let r := match d with | .scalar n _ => n | _ => 0
  { k with latePorts := (now, r :: (if k.latePorts.1 = now then k.latePorts.2 else [])) }

/-- LATE_RESULT_LANDING (09 R234, 02 R38): a late value lands through a free write port and releases its register. -/
def execLateResultLanding (s : State) : Host.Outcome State Fault Refusal :=
  let t := s.focus.tile
  let c := s.focus.ctx
  let now := s.tickOf t
  match (s.ctx t c).inflight.find? fun l => l.id == s.focus.id with
  | none => .next s
  | some l =>
    if l.free && l.due ≤ now && (s.ctx t c).portFree now l.dest then
      .next ((s.land t c l).modCtx t c fun k => k.usePort now l.dest)
    else .next s

/-- LAZY_REGISTER_FILL (06 R138): every 4 cycles the absent register of the lowest number is filled. -/
def execLazyRegisterFill (s : State) : Host.Outcome State Fault Refusal :=
  let t := s.focus.tile
  let c := s.focus.ctx
  let now := s.tickOf t
  let k := s.ctx t c
  if k.absent.isEmpty || now < k.fillAt then .next s
  else .next (s.modCtx t c fun k => { k with absent := k.absent.tail, fillAt := now + 4 })

/-! ### Held commands (R346, R349) -/

/-- A held command is released to run on from its step (R349): a matrix command or a BURNISH begins again when it can. -/
def State.resumeCmd (s : State) (t id : Nat) : State :=
  s.modTile t fun x =>
    { x with
      mq := x.mq.map fun m => if m.head.id = id && m.head.st == .held then { m with head := { m.head with st := .queued, begunOnce := true } } else m
      xq := x.xq.map fun m =>
        if m.head.id = id && m.head.st == .held then
          { m with head := { m.head with st := if m.op == .burnish || m.op == .recipe then .queued else .running, begunOnce := true } }
        else m }

/-- Pins that a command took go back to the die (09 R226). -/
def State.unpin (s : State) (d n : Nat) : State := s.modDie d fun x => { x with pinsUsed := x.pinsUsed - n }

/-- A held command is discarded (R346): it signals with ERR, and changes nothing further. -/
def State.discardCmd (s : State) (t id : Nat) : State :=
  let x := s.tile t
  match x.findM id, x.xq.find? fun m => m.head.id == id with
  | some m, _ => s.modTile t fun x => (x.dropM id).signal (x.ctx m.head.ctx) m.head.sync true
  | none, some m =>
    let s := s.unpin (dieOf t) m.pinCount
    s.modTile t fun x => ({ x with xq := x.xq.filter fun y => y.head.id != id } : Tile).signal (x.ctx m.head.ctx) m.head.sync true
  | none, none => s

/-- ENGINE_FAULT_TAKEN (R346, 01 R19): the fault of the earliest-accepted command is taken at once by a context that is Ready, Blocked
or Paused, has no record open and no far acquire under way (09 R235). One that an urgent request is taking off its tile takes it when
it is back (R362). -/
def execEngineFaultTaken (s : State) : Host.Outcome State Fault Refusal :=
  let t := s.focus.tile
  let c := s.focus.ctx
  let k := s.ctx t c
  let stands := match k.st with | .ready | .blocked _ | .paused => true | _ => false
  if !stands || !k.takesFault then .next s
  else
    let first := k.pendingFaults.foldl (fun (a : Option TrapRecord) r =>
      match a with
      | none => some r
      | some b => if r.cmd < b.cmd then some r else a) none
    match first with
    | none => .next s
    | some r =>
      let s := s.modCtx t c fun k => { k with pendingFaults := k.pendingFaults.filter fun x => x.cmd != r.cmd }
      .next (raiseTrap t c { r with ret := k.pc } s)

/-! ### The fault queue (R352 to R354) -/

/-- Physical address of the entry of a sequence number of a die. -/
def entryAddr (d seq : Nat) : Nat := faultQueueBase + d * 0x100000 + 32 * ((seq - 1) % 32768)

/-- The slot of the next entry is DONE, and the queue's key slot is live. -/
def State.slotDone (s : State) (d : Nat) : Bool :=
  (FMap.get? s.keys 0).isSome && s.hbmByte (s.pairOf 0) (entryAddr d (s.die d).seq.toNat + 31) == 1

/-- Every context of the package, on tiles and saved, changes alike. -/
def State.mapCtxs (s : State) (f : Ctx → Ctx) : State :=
  { s with
    tiles := s.tiles.map fun e => (e.1, { e.2 with ctxs := e.2.ctxs.map fun k => (k.1, f k.2) })
    saved := s.saved.map fun v => { v with ctx := f v.ctx } }

/-- Write an entry into its slot and send its notices (R352, R354). -/
def State.writeEntry (s : State) (d : Nat) (e : QEntry) : State :=
  let seq := (s.die d).seq
  let bytes := toBytes 4 seq.toNat ++ e.bytes
  let s := (s.hbmUsed 0).hbmWrite (s.pairOf 0) (entryAddr d seq.toNat) (bytes.map fun b => (b, false))
  let s := s.modDie d fun x => { x with seq := if seq = 0xFFFFFFFF then 1 else seq + 1, waiting := x.waiting.filter fun y => y.id != e.id }
  let s := s.mapCtxs fun k => if k.entry = e.id && e.id != 0 then { k with ticket := some (d * 2 ^ 32 + seq.toNat), entry := 0 } else k
  s.notify sNotice [e.tenant, 0] [] (BitVec.ofNat 8 d :: List.replicate 31 0 ++ bytes)

/-- Write the waiting entries of a die in order until one finds its slot not DONE. -/
def State.writeWaiting (d : Nat) : Nat → State → State
  | 0, s => s
  | fuel + 1, s =>
    match (s.die d).waiting with
    | [] => s
    | e :: _ =>
      if s.slotDone d then State.writeWaiting d fuel (s.writeEntry d e)
      else (s.hbmUsed 0).modDie d fun x => { x with retestAt := x.tick + 4096 }

/-- A new entry: written at once, or pending behind the others (R352). -/
def State.postEntry (s : State) (d : Nat) (e : QEntry) : State :=
  if (s.die d).waiting.isEmpty then (s.modDie d fun x => { x with waiting := [e] }).writeWaiting d 1
  else s.modDie d fun x => { x with waiting := x.waiting ++ [e] }

/-- FAULT_QUEUE_RETEST (R352): every 4,096 cycles the slot of the first pending entry is tested again. -/
def execFaultQueueRetest (s : State) : Host.Outcome State Fault Refusal :=
  let d := s.focus.die
  let x := s.die d
  if !x.waiting.isEmpty && x.retestAt ≤ x.tick then .next (s.writeWaiting d x.waiting.length) else .next s

/-- Bytes 4 to 31 of an entry (Table 13.3). -/
def entryBytes (cause flags estep kind tenant tnum level trappc retpc : Nat) (addr : Word) (pcode infl : Nat) : List Byte :=
  toBytes 1 cause ++ toBytes 1 flags ++ toBytes 2 estep ++ toBytes 2 (kind * 2 ^ 12 + tenant) ++ toBytes 1 tnum ++ toBytes 1 level
    ++ toBytes 4 trappc ++ toBytes 4 retpc ++ toBytes 8 addr.toNat ++ toBytes 2 pcode ++ toBytes 1 (min infl 255) ++ [0]

/-- FLAGS of an entry. -/
def entryFlags (ctx : Nat) (engine dbl : Bool) (slot : Nat) : Nat := ctx * 64 + bit01 engine * 32 + bit01 dbl * 16 + slot

/-- A context parks with an entry of a kind, and the command that the entry holds (R344, R345, R350). -/
def State.park (s : State) (t c kind held : Nat) (bytes : List Byte) : State :=
  let id := s.nextId
  let s := s.bump.modCtx t c fun k =>
    { k with st := .parked, parkedKind := kind, parkHeld := held, ticket := none, entry := id, pendingTrap := none }
  s.postEntry (dieOf t) { id := id, tenant := (s.ctx t c).tenant.toNat, bytes := bytes }

/-- The context enters its handler (R345). A single-step trap that was due is dropped: after ERET the first one follows the first bundle
that commits at the target (R343). -/
def Ctx.enterHandler (k : Ctx) (r : TrapRecord) : Ctx :=
  { k with
    st := .ready
    pendingTrap := none
    trapcause := r.cause
    trappc := r.pc
    trapslot := r.slot
    estep := r.estep
    trapaddr := r.addr
    engineFlag := r.cmd != 0
    retPoint := k.pc
    heldCmd := r.cmd
    lvl := 1
    pc := k.tvec
    pendingStep := false }

/-- The trap of a context may take its course: everything in flight has landed, and a cycle has gone by (R345). -/
def Ctx.trapDue (k : Ctx) (now : Nat) : Bool :=
  k.st == .trapping && k.inflight.isEmpty && (match k.pendingTrap with | some p => p.2 < now | none => false)

/-- The entry of a trap that parks (R343, R353). -/
def trapEntryBytes (t c : Nat) (k : Ctx) (r : TrapRecord) : List Byte :=
  let level := if r.cause.toNat = cMalformed then r.level.toNat else 0
  entryBytes r.cause.toNat (entryFlags c (r.cmd != 0) (k.trapcause != 0) r.slot.toNat) r.estep.toNat
    (if r.kind = .translation then 1 else 0) k.tenant.toNat t level r.pc.toNat k.pc.toNat r.addr 0 k.infl

/-- TRAP_ENTRY (R344, R345): the handler is entered, or the context parks. -/
def execTrapEntry (s : State) : Host.Outcome State Fault Refusal :=
  let t := s.focus.tile
  let c := s.focus.ctx
  let k := s.ctx t c
  if !k.trapDue (s.tickOf t) then .next s
  else
    match k.pendingTrap with
    | none => .next s
    | some (r, _) =>
      if r.kind != .translation && k.trapcause == 0 && k.tvec != 0 then
        .next (s.modTile t fun x =>
          { x.setCtx c (k.enterHandler r) with trapEntrySwitch := x.lastCtx == c && x.quantum.toNat ≤ s.tickOf t - x.tookAt })
      else .next (s.park t c (if r.kind = .translation then 1 else 0) r.cmd (trapEntryBytes t c k r))

/-! ### The end of a context (11 R309) -/

/-- Every command of a context on its tile has completed, and none of its accesses is on the mesh. -/
def State.idleOf (s : State) (t c : Nat) : Bool :=
  let x := s.tile t
  !(x.mq.any fun m => m.head.ctx == c) && !(x.xq.any fun m => m.head.ctx == c) && !(x.fq.any fun m => m.head.ctx == c)
    && !(s.mesh.any fun r => r.tile == t && r.ctx == c)

/-- Claims and pins of a context go (04 R92, R114). -/
def Tile.forget (x : Tile) (c : Nat) : Tile :=
  { x with claims := x.claims.filter fun e => e.2 != c, pins := x.pins.filter fun e => e.2 != c }

/-- Release what a context holds on its tile, and its phaser slots. -/
def State.dropAll (s : State) (t c : Nat) : State := ((s.ctx t c).phslots.map (·.1)).foldl (fun s k => s.dropSlot t c k) s

/-- The layout records of a context give their pins back to the die. -/
def Ctx.pinned (k : Ctx) : Nat := k.layouts.foldl (fun a e => a + if e.2.live then e.2.pins else 0) 0

/-- A context is gone: its number, registers and semaphore range are free. -/
def State.removeCtx (s : State) (t c : Nat) : State :=
  let k := s.ctx t c
  let s := (s.dropAll t c).unpin (dieOf t) k.pinned
  let s := s.modTile t fun x => { x.forget c with ctxs := FMap.erase x.ctxs c }
  s.memberEnded k.launch k.inst k.member

/-- CONTEXT_END (11 R309): an Ending context whose results have landed and whose commands have completed ends. -/
def execContextEnd (s : State) : Host.Outcome State Fault Refusal :=
  let t := s.focus.tile
  let c := s.focus.ctx
  let k := s.ctx t c
  if k.st == .ending && k.inflight.isEmpty && s.idleOf t c then .next (s.removeCtx t c) else .next s

/-- A context ends as HALT ends it: every command held for it is discarded, and it is Ending (R351 action 3, R354). -/
def State.endCtx (s : State) (t c : Nat) : State :=
  let k := s.ctx t c
  let ids := k.parkHeld :: k.heldCmd :: (k.pendingFaults.map (·.cmd))
  let s := ids.foldl (fun s id => s.discardCmd t id) s
  (s.modTile t fun x => x.endLock c (s.tickOf t)).modCtx t c fun k =>
    { k with st := .ending, pendingFaults := [], parkHeld := 0, heldCmd := 0, ticket := none, entry := 0, pendingTrap := none,
             inFtr := false, lockLeft := none, preempt := none }

/-- CONTEXT_LOST (R354, 17 R395): an uncorrectable error in state without a poison tag is counted, ends the context and writes an entry of
kind 4. -/
def execContextLost (s : State) : Host.Outcome State Fault Refusal :=
  let t := s.focus.tile
  let c := s.focus.ctx
  if !(s.tile t).live c then .next s
  else
    let k := s.ctx t c
    let s := ((s.endCtx t c).sigError k.launch).countError (dieOf t) 4 true t
    .next (s.bump.postEntry (dieOf t)
      { id := s.nextId, tenant := k.tenant.toNat, bytes := entryBytes 0 (entryFlags c false false 0) 0 4 k.tenant.toNat t 0 k.pc.toNat 0 0 0 0 })

end Sys2Proof.Machine
end

