-- ==== Sys2Proof/Machine/Copy.lean ====
section
/-! DEFINITION. The copy engine (09 R214 to R229): the copy forms and watermarks at issue, when a command begins, the beats it moves, how
it completes. -/

namespace Sys2Proof.Machine

/-! ### Operands of the X forms -/

/-- A range of the issuing tile's scratchpad as an operand. -/
def localSide (t : Nat) (a len : Nat) : Side :=
  { va := a, len := len, segs := if len = 0 then [] else [{ va := a, space := .scratch t, off := a, len := len }] }

/-- An operand as found: its range, the checks it fails before translation and in it, the translations it took, its layout. -/
structure Found where
  side : Side := {}
  before : List Check := []
  after : List Check := []
  idents : List (Nat × Nat × Nat) := []
  layout : List Nat := []

/-- A global operand (R189, R217), of a command whose footprint a layout record may cover. -/
def State.findGlobal (s : State) (va : Word) (len : Nat) (write : Bool) (lay : Option Nat) (first : Word) : Found :=
  let k := s.cur
  let before := s.globalFails k va len
  if !before.isEmpty || len = 0 then { side := { va := va.toNat, len := len }, before := before }
  else
    let p := s.place s.issue.tile k va len write lay first
    { side := { va := va.toNat, len := len, segs := p.segs }, after := p.checks, idents := p.idents, layout := p.layout }

/-- An operand range as written: global, in the tile's own scratchpad, or none. -/
inductive Arg where
  | glob (va : Word) (len : Nat)
  | near (a : Word) (len : Nat)
  | none

/-- The global ranges of some operands, each with whether it is written. -/
def Arg.ranges (a : Arg) (write : Bool) : List (Word × Nat × Bool) :=
  match a with
  | .glob va len => [(va, len, write)]
  | _ => []

/-- An operand as found. -/
def State.find (s : State) (a : Arg) (write : Bool) (lay : Option Nat) (first : Word) : Found :=
  match a with
  | .glob va len => s.findGlobal va len write lay first
  | .near a len => { side := localSide s.issue.tile a.toNat len }
  | .none => {}

/-- A copy-operand trap. -/
def xBad (c : Bool) (v : Word) : List Check := failIf c (trapCheck cCopyOperand v)

/-- A local range that passes the scratchpad's end (R220 check 3). -/
def localBad (a : Word) (len : Nat) : List Check := xBad (scratchLimit < a.toNat + len) a

/-- The virtual address of the first byte of some pieces that lies in others too, physically (R220 check 4). -/
def firstShared (dst src : List Seg) : Option Nat :=
  dst.findSome? fun d =>
    let hits := (src.filter d.meets).map fun g => d.va + (max d.off g.off - d.off)
    match hits with
    | [] => none
    | h :: hs => some (hs.foldl min h)

def overlapBad (dst src : List Seg) : List Check :=
  match firstShared dst src with
  | some va => xBad true (BitVec.ofNat 64 va)
  | none => []

/-- More than 64 translations over a command's footprint, named by its first address (R217). -/
def manyBad (ids : List (Nat × Nat × Nat)) (first : Word) : List Check := xBad (64 < ids.eraseDups.length) first

/-- A channel with four uncompleted commands accepts no more (R214, R15). -/
def Tile.channelFull (x : Tile) (ch : Nat) : Bool := 4 ≤ (x.xq.filter fun y => y.ch == ch).length
def fullCheck (s : State) (ch : Nat) : List Check := failIf (s.curTile.channelFull ch) (holdCheck .watermark 3)

/-- The command of an X slot, without its operands' places. -/
def mkX (s : State) (f : XSlot) (op : XOp) : XCmd :=
  { head := s.mkHead 6 f.sy.toNat, op := op, ch := f.ch.toNat, td := f.td.toNat, ord := f.ord.toNat
    a := (s.plainOp f.sa).val, b := (s.plainOp f.sb).val, c := (s.plainOp f.sc).val, d := (s.plainOp f.sd).val
    tenant := s.cur.tenant.toNat }

/-- Accept a command at commit (R214). -/
def State.acceptX (s : State) (x : XCmd) : State := (s.modCurTile fun y => { y with xq := y.xq ++ [x] }).bump

/-- The checks that end every X form: the sync register's, then the channel's. -/
def endChecks (s : State) (f : XSlot) : List (List Check) := [s.cur.syncFails (s.cur.syncReg f.sy.toNat), fullCheck s f.ch.toNat]

/-- The plan of a form that copies: operands in order, own checks between the global ones and translation, what it reads and
writes. A layout record that covers the whole footprint translates it (R217). -/
def copyPlan (s : State) (f : XSlot) (op : XOp) (poison own : List (List Check)) (to' from' idx : Arg) : Plan :=
  let ranges := to'.ranges true ++ from'.ranges false
  let lay := s.layoutOver s.cur ranges
  let first := s.firstOver ranges
  let dst := s.find to' true lay first
  let src := s.find from' false lay first
  let list := s.find idx false lay first
  let ids := dst.idents ++ src.idents
  let reads := src.side.segs ++ list.side.segs
  let x := { mkX s f op with
    dst := dst.side, src := src.side, list := list.side, reads := reads, writes := dst.side.segs
    idents := ids, layouts := dst.layout ++ src.layout }
  { checks := firstOf (poison ++ [dst.before, src.before] ++ own ++ [dst.after, src.after, manyBad ids first,
      overlapBad dst.side.segs reads] ++ endChecks s f)
    act := fun s => s.acceptX { x with head := s.mkHead 6 f.sy.toNat } }

/-- Bytes at most of a copy (R221). -/
def copyLimit : Nat := 0x8000000

/-- COPY (R221). -/
def execCopy (f : XSlot) : State → Host.Outcome State Fault Refusal :=
  issueOp fun s =>
    let a := s.plainOp f.sa
    let b := s.plainOp f.sb
    let c := s.plainOp f.sc
    let n := c.val.toNat
    copyPlan s f .copy [poisonStop' a, poisonStop' b, poisonStop' c] [xBad (copyLimit < n) c.val] (.glob a.val n) (.glob b.val n) .none
where
  poisonStop' (v : SReg) : List Check := failIf v.poison (trapCheck cPoison v.val)

/-- Poisoned operands of an X form (R220 check 1). -/
def poisonAll (l : List SReg) : List (List Check) := l.map fun v => failIf v.poison (trapCheck cPoison v.val)

/-- GET (R221). -/
def execGet (f : XSlot) : State → Host.Outcome State Fault Refusal :=
  issueOp fun s =>
    let a := s.plainOp f.sa
    let b := s.plainOp f.sb
    let c := s.plainOp f.sc
    let n := c.val.toNat
    copyPlan s f .copy (poisonAll [a, b, c]) [xBad (copyLimit < n) c.val, localBad a.val n] (.near a.val n) (.glob b.val n) .none

/-- PUT (R221). -/
def execPut (f : XSlot) : State → Host.Outcome State Fault Refusal :=
  issueOp fun s =>
    let a := s.plainOp f.sa
    let b := s.plainOp f.sb
    let c := s.plainOp f.sc
    let n := c.val.toNat
    copyPlan s f .copy (poisonAll [a, b, c]) [xBad (copyLimit < n) c.val, localBad b.val n] (.glob a.val n) (.near b.val n) .none

def spanCtlBad (w : Word) : Bool :=
  let x := w.toNat
  let c := SpanCtl.ofWord w
  bits x 39 31 != 0 || bitAt x 15 || c.spanp == 0 || c.elen == 0 || 4096 < c.elen

/-- Check 3 of R220 for GATHER and SCATTER: the control word, the local range, the index list. -/
def spanChecks (ctl idx loc : Word) : List (List Check) :=
  let c := SpanCtl.ofWord ctl
  [xBad (spanCtlBad ctl) ctl, localBad loc (c.count * c.elen), xBad (idx.toNat % c.idxBytes != 0) idx,
    localBad idx (c.count * c.idxBytes)]

/-- GATHER (R223). -/
def execGather (f : XSlot) : State → Host.Outcome State Fault Refusal :=
  issueOp fun s =>
    let a := s.plainOp f.sa
    let b := s.plainOp f.sb
    let c := s.plainOp f.sc
    let d := s.plainOp f.sd
    let w := SpanCtl.ofWord d.val
    copyPlan s f .gather (poisonAll [a, b, c, d]) (spanChecks d.val c.val a.val) (.near a.val (w.count * w.elen))
      (.glob b.val (4096 * w.spanp)) (.near c.val (w.count * w.idxBytes))

/-- SCATTER (R223). -/
def execScatter (f : XSlot) : State → Host.Outcome State Fault Refusal :=
  issueOp fun s =>
    let a := s.plainOp f.sa
    let b := s.plainOp f.sb
    let c := s.plainOp f.sc
    let d := s.plainOp f.sd
    let w := SpanCtl.ofWord d.val
    copyPlan s f .scatter (poisonAll [a, b, c, d]) (spanChecks d.val c.val b.val) (.glob a.val (4096 * w.spanp))
      (.near b.val (w.count * w.elen)) (.near c.val (w.count * w.idxBytes))

/-- WMSET (R228): it is never queued. Of a range that ends past the scratchpad TRAPADDR holds the base (log 79). -/
def execWmset (f : XSlot) : State → Host.Outcome State Fault Refusal :=
  issueOp fun s =>
    let a := s.plainOp f.sa
    let b := s.plainOp f.sb
    { checks := firstOf (poisonAll [a, b] ++ [xBad (a.val.toNat % 64 != 0) a.val, xBad (b.val.toNat % 64 != 0) b.val, localBad a.val b.val.toNat])
      act := fun s => s.modCur fun k =>
        { k with watched :=
            if b.val = 0 then FMap.erase k.watched f.ch.toNat
            else FMap.insert k.watched f.ch.toNat (a.val.toNat, a.val.toNat + b.val.toNat) } }

/-! ### Layouts (R224 to R227) -/

/-- A layout's range lies within space 0x0 or 0x1 (R226). -/
def State.layoutRange (s : State) (va : Word) (len : Nat) : Option Nat :=
  match (GAddr.ofWord va).map (GAddr.local s) with
  | some (.hbm off) => if off + len ≤ hbmLimit then some 0 else none
  | some (.wstore d off) => if off + len ≤ wstoreLimit && d < 4 then some 1 else none
  | _ => none

/-- LAYREG (R226). -/
def execLayreg (f : XSlot) : State → Host.Outcome State Fault Refusal :=
  issueOp fun s =>
    let a := s.plainOp f.sa
    let b := s.plainOp f.sb
    let c := s.plainOp f.sc
    { checks := firstOf (poisonAll [a, b, c] ++
        [failIf (s.layoutRange a.val b.val.toNat).isNone (trapCheck cGlobalAddress a.val),
          xBad (b.val.toNat == 0 || 2 ^ 36 < b.val.toNat) b.val, xBad (c.val.toNat == 0 || 3 < c.val.toNat) c.val] ++ endChecks s f)
      nonRep := true
      act := fun s => s.acceptX (mkX s f .layreg) }

/-- LAYDROP (R227): the generation steps at commit; the pins go at completion. -/
def execLaydrop (f : XSlot) : State → Host.Outcome State Fault Refusal :=
  issueOp fun s =>
    let a := s.plainOp f.sa
    let y := s.cur.layoutOf a.val
    { checks := firstOf ([failIf a.poison (trapCheck cPoison a.val), xBad y.isNone a.val] ++ endChecks s f)
      nonRep := true
      act := fun s =>
        match y with
        | none => s
        | some (i, r) =>
          let gen := if r.gen = 0xFFFF then 1 else r.gen + 1
          (s.modCur fun k => { k with layouts := FMap.insert k.layouts i { gen := gen } }).acceptX
            { mkX s f .laydrop with layouts := [i], pinCount := r.pins, pinned := r.segs } }

/-! ### Begin (R215) -/

/-- Two footprints conflict (08 R206). -/
def XCmd.clash (a b : XCmd) : Bool := segsMeet a.writes (b.reads ++ b.writes) || segsMeet a.reads b.writes

/-- An earlier-accepted command of the package's copy engines names the sheet (R240). -/
def State.sheetNamed (s : State) (x : XCmd) : Bool :=
  s.tiles.any fun e => e.2.xq.any fun y => y.head.id < x.head.id && segsMeet x.writes (y.reads ++ y.writes)

def XCmd.burnishes (x : XCmd) : Bool := x.op == .burnish || x.op == .recipe

/-- Two BURNISH commands of a die conflict (07 R177). -/
def burnishClash (a b : XCmd) : Bool :=
  if a.op == .recipe || b.op == .recipe then (BurnishCtl.ofWord a.d).rcp == (BurnishCtl.ofWord b.d).rcp
  else segsMeet a.pinned b.pinned || segsMeet a.dst.segs b.dst.segs

/-- An earlier-accepted BURNISH of the die conflicts with a command and has not completed. -/
def State.burnishBlocked (s : State) (t : Nat) (x : XCmd) : Bool :=
  s.tiles.any fun e => dieOf e.1 == dieOf t && e.2.xq.any fun y => y.burnishes && y.head.id < x.head.id && burnishClash y x

/-- A queued command may begin in a cycle, its SY wait apart (R215, R227, R240). -/
def State.mayBeginX (s : State) (t : Nat) (x : XCmd) (now : Nat) : Bool :=
  let y := s.tile t
  let earlier := y.xq.filter fun a => a.head.id < x.head.id
  x.head.st == .queued && x.head.issued < now && !(y.ctx x.head.ctx).bars x.head
    && !(earlier.any fun a => a.ch == x.ch || a.clash x)
    && (!x.releases || s.releasedFor t x.head)
    && !y.behindAcquire x.head && !s.behindMesh t x.head
    && (match x.op with
        | .laydrop => !(earlier.any fun a => x.layouts.any fun i => a.head.ctx == x.head.ctx && a.layouts.contains i)
        | .smfree => !s.sheetNamed x
        | _ => true)

def Tile.setX (x : Tile) (c : XCmd) : Tile := { x with xq := x.xq.map fun a => if a.head.id = c.head.id then c else a }
def Tile.findX (x : Tile) (id : Nat) : Option XCmd := x.xq.find? fun a => a.head.id == id
def Tile.dropX (x : Tile) (id : Nat) : Tile := { x with xq := x.xq.filter fun a => a.head.id != id }

/-- An earlier command of the engine waits: the engine serves its waiting commands in acceptance order (11 R300; log 47). -/
def Tile.waitsBehind (y : Tile) (x : XCmd) : Bool := y.xq.any fun a => a.head.id < x.head.id && a.head.waits

/-- The wait of a command in the later half of a cycle (11 R299): met once, its threshold taken. -/
def State.tryWaitX (s : State) (t : Nat) (x : XCmd) : XCmd × State :=
  let k := s.ctx t x.head.ctx
  let tries := s.focus.args == [1] && x.head.waits && !(s.tile t).waitsBehind x && x.head.issued < s.tickOf t && !k.bars x.head
  if tries && (s.tile t).waitMet k x.head.sync then
    let y := { x with head := { x.head with waited := true } }
    (y, (s.meetWait t x.head).modTile t fun z => z.setX y)
  else (x, s)

/-! ### Units: chunks and elements (R222, R223) -/

/-- A command that moves elements under an index list. -/
def XCmd.indexed (x : XCmd) : Bool := x.op == .gather || x.op == .scatter

/-- The destination bytes of chunk k: where they start and where they end. -/
def XCmd.chunk (x : XCmd) (k : Nat) : Nat × Nat :=
  let base := x.dst.va / 4096 + k
  (base * 4096 - x.dst.va, min x.dst.len ((base + 1) * 4096 - x.dst.va))

/-- The destination bytes of the unit under way: a chunk, or the element whose index has been read. -/
def XCmd.span (x : XCmd) : Nat × Nat :=
  if x.indexed then (match x.unit with | some (_, da, n) => (da, da + n) | none => (0, 0)) else x.chunk x.done

/-- Where element k is read and written, and its length; or the fault of its index. -/
def elementOf (x : XCmd) (k : Nat) (raw : List (Byte × Bool)) : Except Word (Nat × Nat × Nat) :=
  let c := SpanCtl.ofWord x.d
  let i := bytesVal raw
  let off := if c.scale then i * c.elen else i
  if bytesPoison raw || 4096 * c.spanp < off + c.elen then .error (BitVec.ofNat 64 k)
  else if x.op == .gather then .ok (off, k * c.elen, c.elen) else .ok (k * c.elen, off, c.elen)

/-- The index of the element under way. -/
def XCmd.indexPieces (x : XCmd) : List Seg :=
  let n := (SpanCtl.ofWord x.d).idxBytes
  cutSegs x.list.segs (x.done * n) n

/-- The sheet that a command's operand names, when it names one: lost (1) or stale (2), and whether the port to it is down (R216, R238,
R246; 13 R367). -/
def State.sheetBad (s : State) (y : Side) : Nat × Bool :=
  match GAddr.ofWord (BitVec.ofNat 64 y.va) with
  | some (.switch gen w _ n _) =>
    let h := s.sheet w n
    let v := s.switch (s.home w n)
    if y.len = 0 then (0, false)
    else (if v.lost then 1 else if h.gen.toNat != gen || !h.named w then 2 else 0, !v.portUp)
  | _ => (0, false)

/-- A sheet that a command's operand names is no longer as it was: lost or cut off (1), or stale (2); memory of a fenced die does
not answer (3) (R216, R238, R246; 13 R367, R369). -/
def State.sideBad (s : State) (y : Side) : Nat :=
  let sheet := if (s.sheetBad y).2 then 1 else (s.sheetBad y).1
  let fenced := y.segs.any fun g =>
    match g.space with
    | .wstore d => (s.die d).fenced
    | .scratch t | .acc t | .om t => (s.die (dieOf t)).fenced
    | _ => false
  if sheet != 0 then sheet else if fenced then 3 else 0

/-- Tile memory of the package. -/
def Seg.inTile (g : Seg) : Bool :=
  match g.space with
  | .scratch _ | .acc _ | .om _ => true
  | _ => false

/-- Tile memory takes poisoned bytes, another package's too, and so do UN pages (08 R196, R199). -/
def Seg.takesPoison (g : Seg) : Bool :=
  g.inTile || g.ord == 0 || match g.space with | .remote _ rsp => rsp == 2 | _ => false

def Seg.isRemote (g : Seg) : Bool := match g.space with | .remote _ _ => true | _ => false
def Side.isRemote (y : Side) : Bool := y.segs.any Seg.isRemote

/-- The first poisoned byte of some that is bound for an SO or RC page (08 R199). -/
def firstRefused (segs : List Seg) (at' : Nat) (bs : List (Byte × Bool)) : Option Nat :=
  (List.range bs.length).find? fun j => (bs.getD j (0, false)).2 && (cutSegs segs (at' + j) 1).any fun g => !g.takesPoison

/-- A running command takes an engine fault and is held: the unit under way starts again when it is resumed (R222, R346). -/
def State.holdX (s : State) (t : Nat) (x : XCmd) (kind : TrapKind) (cause estep : Nat) (addr : Word) (level : Nat := 0) : State :=
  let y := { x with
    head := { x.head with st := .held, since := none }, buf := [], unit := none, fetchSince := none, asked := none
    srcAt := if x.indexed then x.srcAt else x.span.1 }
  (s.modTile t fun z => z.setX y).engineFault t x.head kind cause estep addr level

/-- Free bytes, poisoned: what a non-OK command delivers as read data (R216; log 3). -/
def State.lostBytes (s : State) (n : Nat) : List (Byte × Bool) := (List.range n).map fun i => (Config.remoteByte s.free i, true)

/-- The die whose stacks hold an HBM byte (17 R384). -/
def stackDie (pa : Nat) : Nat := pa / 256 % 8 / 2

/-- The links on the way from a die, or the hub die as 4, to the stacks of some HBM bytes are up (17 R384; log 5). -/
def State.stacksUp (s : State) (d : Nat) (g : Seg) : Bool :=
  (rangeFrom (g.off / 256) (min 8 ((g.off + g.len - 1) / 256 - g.off / 256 + 1))).all fun u =>
    let e := stackDie (256 * u)
    if d = 4 then (s.die e).fenced || !(s.die e).downLinks.contains 4 else s.wayUp d e

/-- An access that waits: a busy accumulator region, a busy OM slot written, a tile in scrub, a failover, a link that is down on its way
(08 R191; 04 R93, R95; 12 R330; 13 R366, R368). -/
def State.segWaits (s : State) (d id : Nat) (write : Bool) (g : Seg) : Bool :=
  let away := fun t => (FMap.get? s.scrubs t).isSome || !s.wayUp d (dieOf t)
  match g.space with
  | .acc t => away t || (rangeFrom (g.off / 16384) ((g.off + g.len - 1) / 16384 - g.off / 16384 + 1)).any fun k => (s.tile t).regionBusy k
  | .om t => away t || (write && (s.tile t).slotBusy (g.off / omSlotBytes) id)
  | .scratch t => away t
  | .wstore e => if d = 4 then !(s.die e).fenced && (s.die e).downLinks.contains 4 else !s.wayUp d e
  | .switch w => (s.switch w).failover || (s.die d).downLinks.contains 4
  | .remote _ _ => (s.die d).downLinks.contains 4
  | .hbm => !s.stacksUp d g

def State.waitsFor (s : State) (d id : Nat) (write : Bool) (segs : List Seg) : Bool := segs.any (s.segWaits d id write)

/-! ### Access parts (R220, 08 R190) -/

/-- The largest part of an access at a byte of a memory kind, of no more than n bytes, that is made indivisibly (08 Table 8.4): an aligned
power of two, or what lies in an aligned unit. -/
def unitAt (space : Space) (off n : Nat) : Nat :=
  let pow := fun (cap : Nat) =>
    ((List.range 7).map (fun i => 2 ^ (6 - i))).find? (fun u => u ≤ cap && off % u == 0 && u ≤ n) |>.getD 1
  match space with
  | .scratch _ => pow 8
  | .acc _ | .om _ => min n (8 - off % 8)
  | .wstore _ => min n (32 - off % 32)
  | .remote _ rsp => if rsp = 0 then pow 64 else if rsp = 1 then min n (32 - off % 32) else pow 8
  | .hbm | .switch _ => pow 64

/-- The part of an access to some pieces that starts at a place, of no more than n bytes. -/
def partAt (segs : List Seg) (at' n : Nat) : Nat :=
  match cutSegs segs at' n with
  | g :: _ => unitAt g.space g.off g.len
  | [] => n

/-- The part of a command's move at a place of its destination: cut at the bounds of both kinds, but an accumulator entry stays whole
(R220, 08 R191). -/
def XCmd.partLen (x : XCmd) (da sa n : Nat) : Nat :=
  let d := partAt x.dst.segs da n
  match cutSegs x.dst.segs da 1 with
  | g :: _ => (match g.space with | .acc _ => d | _ => min d (partAt x.src.segs sa n))
  | [] => d

/-- So many parts of a move, of no more than n bytes: their length. -/
def XCmd.partsLen (x : XCmd) : Nat → Nat → Nat → Nat → Nat
  | 0, _, _, _ => 0
  | k + 1, da, sa, n =>
    if n = 0 then 0
    else
      let m := max 1 (x.partLen da sa n)
      m + x.partsLen k (da + m) (sa + m) (n - min m n)

/-- A free number of a cycle for a command (log 11). -/
def State.someOf (s : State) (id n : Nat) : Nat := Config.freeFor s.free (16 * id + 2) / 2 % n

/-! ### Fetching (R222, R223) -/

/-- Bytes that a command holds at most when it fetches on: a chunk being written and the next one. -/
def fetchAhead : Nat := 8192

/-- The next bytes to fetch: from where in the source, and how many are left. A far acquire fetches all of its bytes before it writes any
(R236). -/
def XCmd.wants (x : XCmd) : Option (Nat × Nat) :=
  if x.indexed then
    match x.unit with
    | some (sa, _, n) => if x.srcAt < sa + n then some (x.srcAt, sa + n - x.srcAt) else none
    | none => none
  else if x.srcAt < x.src.len && (x.far || x.buf.length < fetchAhead) then some (x.srcAt, x.src.len - x.srcAt) else none

/-- The index of the next element is to be read. -/
def XCmd.wantsIndex (x : XCmd) : Bool := x.indexed && x.unit.isNone && x.done < x.units

/-- Bytes that one cycle fetches at most: eight lines, or on SO pages one access part (08 R197). -/
def XCmd.fetchMost (x : XCmd) (at' left : Nat) : Nat :=
  if strong x.src.segs then partAt x.src.segs at' left else min left (512 - (x.src.va + at') % 64)

/-- The pieces that the next fetch reads at most. -/
def XCmd.fetchPieces (x : XCmd) : List Seg :=
  if x.wantsIndex then x.indexPieces
  else match x.wants with
    | some (at', left) => cutSegs x.src.segs at' (x.fetchMost at' left)
    | none => []

/-- What a non-OK command delivers to tile memory goes on, poisoned; one with another destination ends with its unit (R216). -/
def XCmd.delivers (x : XCmd) : Bool := x.dst.segs.all Seg.inTile

/-- A running command that moves bytes has some to fetch. -/
def XCmd.fetches (x : XCmd) : Bool :=
  x.head.st == .running && x.moves && !x.stopped && (x.status == 0 || x.delivers) && (x.wantsIndex || x.wants.isSome)

/-- The source answers no more: its status, or 0. -/
def State.sourceBad (s : State) (x : XCmd) : Nat :=
  let bad := s.sideBad x.src
  if x.status != 0 then x.status else if bad != 0 then bad else if x.src.isRemote && s.maybe 1 x.head.id then 3 else 0

/-- The index of the element under way is read, or faults with nothing of the element moved (R223). -/
def State.readIndex (s : State) (t : Nat) (x : XCmd) : State :=
  match elementOf x x.done (s.readSide x.indexPieces 0 (SpanCtl.ofWord x.d).idxBytes) with
  | .error addr => s.holdX t x .engine cGatherIndex (2 + x.done) addr
  | .ok (sa, da, n) => s.modTile t fun y => y.setX { x with unit := some (sa, da, n), srcAt := sa, dstAt := da, fetchSince := none }

/-- A byte of HBM lies in the optimiser state that a running BURNISH writes. -/
def State.inPanel (s : State) (pa : Nat) : Bool :=
  s.tiles.any fun e => e.2.xq.any fun x => x.op == .burnish && x.head.st == .running
    && x.dst.segs.any fun g => g.space == .hbm && g.off ≤ pa && pa < g.off + g.len

/-- A read of n bytes of some pieces, of which `left` are to be read, goes on to the end of a 32-byte unit of optimiser state that a
BURNISH writes (07 R168). -/
def State.wholeUnit (s : State) (segs : List Seg) (at' n left : Nat) : Nat :=
  match cutSegs segs (at' + n - 1) 1 with
  | g :: _ => if g.space == .hbm && s.inPanel g.off then n + min (left - n) (31 - g.off % 32) else n
  | [] => n

/-- Bytes are fetched: of those the banks were granted for all, or only the first part (log 11). -/
def State.fetchBytes (s : State) (t : Nat) (x : XCmd) (at' left : Nat) : State :=
  let st := s.sourceBad x
  let most := x.fetchMost at' left
  let n := s.wholeUnit x.src.segs at' (if s.someOf (2 * x.head.id + 1) 2 = 0 then most else min most (partAt x.src.segs at' most)) left
  if st = 0 then
    let bytes := s.readSide x.src.segs at' n
    ((s.noteAccess x.head.id (cutSegs x.src.segs at' n)).useGroups (cutSegs x.src.segs at' n)).modTile t fun y =>
      y.setX { x with buf := x.buf ++ bytes, srcAt := at' + n, fetchSince := none, asked := none }
  else if x.delivers then
    ({ s with free := s.free + 1 } : State).modTile t fun y =>
      y.setX { x with status := st, buf := x.buf ++ s.lostBytes n, srcAt := at' + n, fetchSince := none, asked := none }
  else s.modTile t fun y => y.setX { x with status := st, asked := none }

/-! ### Writing (R222, R223) -/

/-- A far acquire of a block has fetched all of its bytes, and may write them: with poison among them it writes none (R236). -/
def XCmd.mayDeliver (x : XCmd) : Bool := !x.far || (x.src.len ≤ x.srcAt && !bytesPoison x.buf)

/-- The bytes of the unit under way that are still to be written: where they go, and how many, once all of them are fetched. -/
def XCmd.puts (x : XCmd) : Option (Nat × Nat) :=
  let (lo, hi) := x.span
  let from' := max lo x.dstAt
  if x.mayDeliver && from' < hi && hi ≤ from' + x.buf.length then some (from', hi - from') else none

/-- A unit under way is written to its end; with a non-OK status no other is begun, unless poison is delivered (13 R371). -/
def XCmd.mayPut (x : XCmd) : Bool :=
  x.head.st == .running && x.moves && !x.stopped && x.puts.isSome && (x.status == 0 || x.delivers || x.span.1 < x.dstAt)

/-- The next write: within a 64-byte line of the destination (R215). -/
def XCmd.beatMost (x : XCmd) (da left : Nat) : Nat := min left (64 - (x.dst.va + da) % 64)

/-- The pieces that the next write meets at most. -/
def XCmd.putPieces (x : XCmd) : List Seg :=
  match x.puts with
  | some (da, left) => cutSegs x.dst.segs da (x.beatMost da left)
  | none => []

/-- Where in the source the byte for a place of the destination comes from. -/
def XCmd.sourceOf (x : XCmd) (da : Nat) : Nat :=
  match x.unit with
  | some (sa, d, _) => sa + (da - d)
  | none => da

/-- Bytes of the next write: some access parts of a line, or on SO pages one (08 R190, R197; log 11). -/
def State.beatLen (s : State) (x : XCmd) (da left : Nat) : Nat :=
  x.partsLen (if strong x.dst.segs then 1 else 1 + s.someOf (2 * x.head.id) 64) da (x.sourceOf da) (x.beatMost da left)

/-- A run of written bytes grows, or a new one is listed. -/
def addRun (l : List (Nat × Nat)) (a n : Nat) : List (Nat × Nat) :=
  match l with
  | (b, m) :: rest => if b + m = a then (b, m + n) :: rest else (a, n) :: l
  | [] => [(a, n)]

/-- The command after n bytes of its unit are written from a place on. -/
def XCmd.wroteBytes (x : XCmd) (t da n : Nat) : XCmd :=
  let wrote := (cutSegs x.dst.segs da n).foldl (fun l g => if g.space == .scratch t then addRun l g.off g.len else l) x.wrote
  let last := x.span.2 ≤ da + n
  { x with
    buf := x.buf.drop n, dstAt := da + n, wrote := wrote, unit := if last then none else x.unit, asked := none
    head := { x.head with written := x.head.written + n, steps := if last then x.head.steps + 1 else x.head.steps, since := none } }

/-- An aligned 64-byte unit of the destination is written in part, and what the command names there still stands: the unit is written to
its end before a status ends the command (R216). -/
def State.midUnit (s : State) (x : XCmd) (da : Nat) : Bool := x.span.1 < da && (x.dst.va + da) % 64 != 0 && (s.sheetBad x.dst).1 == 0

/-- The destination answers no more: the status that ends the command, or 0. -/
def State.destBad (s : State) (x : XCmd) (da : Nat) : Nat :=
  let bad := s.sideBad x.dst
  if s.midUnit x da && bad != 3 then 0
  else if bad != 0 then bad
  else if x.dst.isRemote && s.maybe 1 x.head.id then 3 else 0

/-- A beat is written; before the first of a unit its bytes are checked, and a destination that is gone ends the command (R222, R216, 08
R199). -/
def State.writeBeat (s : State) (t : Nat) (x : XCmd) (da left : Nat) : State :=
  let gone := s.destBad x da
  match if x.dstAt ≤ x.span.1 then firstRefused x.dst.segs da (x.buf.take left) else none with
  | some j => s.holdX t x .engine cPoison (2 + x.done) (BitVec.ofNat 64 (x.src.va + x.sourceOf (da + j)))
  | none =>
    if gone != 0 then s.modTile t fun y => y.setX { x with status := if x.status = 0 then gone else x.status, stopped := true, asked := none }
    else
      let n := s.beatLen x da left
      let s := ((s.writeSide x.dst.segs da (x.buf.take n)).noteAccess x.head.id (cutSegs x.dst.segs da n)).useGroups (cutSegs x.dst.segs da n)
      s.modTile t fun y => y.setX (x.wroteBytes t da n)

/-- The scratchpad banks of some pieces, by tile. -/
def segBanks (segs : List Seg) : List (Nat × Nat) :=
  segs.flatMap fun g => match g.space with | .scratch t => (banksOf g.off g.len).map fun b => (t, b) | _ => []

/-- What a command may touch in this cycle: nothing waits, the banks are its own, the groups are free. -/
def State.goesX (s : State) (t id : Nat) (write : Bool) (segs : List Seg) : Bool :=
  !s.waitsFor (dieOf t) id write segs && s.hasBanks (segBanks segs) && s.groupsFree segs

/-- A command that cannot make an access it came to waits from then on (08 R193). -/
def XCmd.missed (x : XCmd) (now : Nat) (fetch : Bool) : XCmd :=
  if fetch then { x with fetchSince := some (x.fetchSince.getD now) }
  else { x with head := { x.head with since := some (x.head.since.getD now) } }

/-- The write of a command in this cycle. -/
def State.putStep (s : State) (t : Nat) (x : XCmd) : State :=
  match x.puts with
  | some (da, left) =>
    if !x.mayPut then s
    else if s.goesX t x.head.id true x.putPieces then s.writeBeat t x da left
    else s.modTile t fun y => y.setX (x.missed (s.tickOf t) false)
  | none => s

/-- The fetch of a command in this cycle. -/
def State.fetchStep (s : State) (t : Nat) (x : XCmd) : State :=
  if !x.fetches then s
  else if !s.goesX t x.head.id false x.fetchPieces then s.modTile t fun y => y.setX (x.missed (s.tickOf t) true)
  else if x.wantsIndex then s.readIndex t x
  else match x.wants with
    | some (at', left) => s.fetchBytes t x at' left
    | none => s

/-- A moving command's cycle: its write, and its fetch, as they were granted. -/
def State.moveStep (s : State) (t : Nat) (x : XCmd) : State :=
  let id := x.head.id
  let s := if (s.tile t).beat = some id then s.putStep t x else s
  match (s.tile t).findX id with
  | some y => if (s.tile t).fetch = some id then s.fetchStep t y else s
  | none => s

/-! ### Grants (R215, 08 R193) -/

/-- A command may make its next write, or its next fetch, in the next cycle: nothing it touches waits (log 3). -/
def State.putReady (s : State) (t : Nat) (x : XCmd) : Bool :=
  x.mayPut && s.maybe 2 (2 * x.head.id) && !s.waitsFor (dieOf t) x.head.id true x.putPieces
def State.fetchReady (s : State) (t : Nat) (x : XCmd) : Bool :=
  x.fetches && s.maybe 2 (2 * x.head.id + 1) && !s.waitsFor (dieOf t) x.head.id false x.fetchPieces

/-- The first command, round robin over the channels after the last one served, for which a condition holds. -/
def Tile.nextChannel (x : Tile) (last : Nat) (ok : XCmd → Bool) : Option XCmd :=
  ((List.range 8).map fun i => (last + 1 + i) % 8).findSome? fun ch => x.xq.find? fun y => y.ch == ch && ok y

/-- The access of a copy engine to some pieces: an access to other tiles only comes to them through their window. -/
def askX (t now : Nat) (x : XCmd) (fetch : Bool) (segs : List Seg) : Ask :=
  let banks := segBanks segs
  { age := (if fetch then x.fetchSince else x.head.since).getD (now + 1), rank := if banks.all fun b => b.1 == t then 1 else 2
    tile := t, id := x.head.id, fetch := fetch, banks := banks }

/-- A BURNISH reads its recipe in its begin cycle, or when its bank is free (07 R176). -/
def XCmd.wantsRecipe (x : XCmd) : Bool := x.op == .recipe && x.head.st == .running && x.image.isEmpty

/-- The accesses that commands will make in their begin cycle, when that is the next: a FMTSEL's image and a BURNISH's recipe. -/
def State.beginAsks (s : State) (t : Nat) : List Ask :=
  let x := s.tile t
  let now := s.tickOf t
  (x.mq.filter fun m => m.loadsEntry && m.head.clear && s.willBeginM t m).map (fun m => m.askImage t now)
    ++ (x.xq.filter fun y => y.op == .recipe && y.head.clear && s.mayBeginX t y (now + 1) && !s.burnishBlocked t y).map fun y =>
      askX t now y false y.src.segs

/-- What the units of a tile ask for in the next cycle. -/
def State.asksOf (s : State) (t : Nat) : List Ask :=
  let x := s.tile t
  let now := s.tickOf t
  x.mq.flatMap (fun m => m.ask t now)
    ++ (match x.nextChannel x.lastCh (s.putReady t) with | some y => [askX t now y false y.putPieces] | none => [])
    ++ (match x.nextChannel x.lastFetch (s.fetchReady t) with | some y => [askX t now y true y.fetchPieces] | none => [])
    ++ ((x.xq.filter XCmd.wantsRecipe).map fun y => askX t now y false y.src.segs) ++ s.beginAsks t

/-- How many bytes a request moves in all. -/
def Inbound.total (r : Inbound) : Nat := segsLen r.segs

/-- The next access of a request to memory (12 R334, R337): the rest of an aligned line. -/
def Inbound.piece (r : Inbound) : Seg :=
  match cutSegs r.segs r.done (r.total - r.done) with
  | g :: _ => { g with len := min g.len (64 - g.off % 64) }
  | [] => { va := 0, space := .hbm, off := 0, len := 0 }

/-- The agent in whose cycles a request is served: the die of the memory, or the hub (log 5). -/
def Inbound.agent (r : Inbound) : Nat :=
  match r.piece.space with
  | .scratch t | .acc t | .om t => dieOf t
  | .wstore d => d
  | _ => 4

/-- A request waits: its tile is in scrub or its slot or region is busy, or a link on its way is down. -/
def State.inboundWaits (s : State) (r : Inbound) : Bool :=
  s.segWaits r.agent r.id r.write r.piece || (r.agent < 4 && (s.die r.agent).downLinks.contains 4)

/-- What other packages' requests ask for in the next cycle of a die. -/
def State.asksIn (s : State) (d : Nat) : List Ask :=
  s.inbound.flatMap fun r =>
    let banks := segBanks [r.piece]
    if r.agent = d && !banks.isEmpty && !s.inboundWaits r then [{ age := r.since + 1, rank := 2, tile := 192, id := r.id, banks := banks }] else []

/-- A request that has been granted its banks, or that goes on waiting. -/
def State.answerAsk (s : State) (a : Ask) (ok : Bool) : State :=
  let wait := fun (since : Option Nat) => if ok then since else some (since.getD a.age)
  if a.tile = 192 then { s with inbound := s.inbound.map fun r => if r.id = a.id then { r with granted := ok } else r }
  else
    s.modTile a.tile fun x =>
      match x.xq.find? fun y => y.head.id == a.id with
      | none => if ok then { x with granteds := a.id :: x.granteds } else x
      | some y =>
        if y.op == .recipe then { x.setX { y with head := { y.head with since := wait y.head.since } } with granteds := if ok then a.id :: x.granteds else x.granteds }
        else if a.fetch then
          { x.setX { y with fetchSince := wait y.fetchSince } with fetch := if ok then some a.id else none, lastFetch := if ok then y.ch else x.lastFetch }
        else
          { x.setX { y with head := { y.head with since := wait y.head.since } } with
            beat := if ok then some a.id else none, lastCh := if ok then y.ch else x.lastCh }

/-- The oldest access first: each takes its banks if they are free (08 R193). -/
def State.grantAsks (s : State) (asks : List Ask) : State :=
  (asks.mergeSort fun a b => a.before b).foldl (fun s a =>
    if s.grantable a then (s.grantBanks a.banks).answerAsk a true else s.answerAsk a false) s

/-- A request to another package departs when a command comes to it and the die's hub link is up (13 R366). -/
def XCmd.departs (x : XCmd) (now : Nat) (up : Bool) : XCmd :=
  if up && x.asked.isNone && ((x.fetches && x.fetchPieces.any Seg.isRemote) || (x.mayPut && x.putPieces.any Seg.isRemote)) then
    { x with asked := some now } else x

/-- The grants for the next cycle to the accesses of a die's units, and of other packages to its tiles. -/
def State.grants (s : State) (d : Nat) : State :=
  let ts := (s.tiles.filter fun e => dieOf e.1 == d).map (·.1)
  let s := ts.foldl (fun s t =>
    if (s.tile t).mq.isEmpty && (s.tile t).xq.isEmpty then s
    else s.modTile t fun x => { x with beat := none, fetch := none, granteds := [], xq := x.xq.map fun y => y.departs (s.tickOf t) (!(s.die d).downLinks.contains 4) }) s
  s.grantAsks (ts.flatMap s.asksOf ++ s.asksIn d)

/-- An access that was granted banks for the next cycle gives them back. -/
def State.takeBack (s : State) (b : Ask) : State :=
  let s := b.banks.foldl (fun s k => s.modTile k.1 fun x => { x with granted := x.granted.erase (k.2, s.tickOf k.1 + 1) }) s
  let s := s.answerAsk b false
  match (s.tile b.tile).findX b.id with
  | some y => s.modTile b.tile fun x => if b.fetch then { x with lastFetch := (y.ch + 7) % 8 } else { x with lastCh := (y.ch + 7) % 8 }
  | none => s

/-- The accesses of copy engines and of other packages that are granted banks in a die for the next cycle. -/
def State.grantedAsks (s : State) (d : Nat) : List Ask :=
  (s.tiles.filter fun e => dieOf e.1 == d).flatMap (fun e =>
      let now := s.tickOf e.1
      (match e.2.beat.bind e.2.findX with | some y => [askX e.1 now y false y.putPieces] | none => [])
        ++ (match e.2.fetch.bind e.2.findX with | some y => [askX e.1 now y true y.fetchPieces] | none => []))
    ++ s.asksIn d

/-- An equally old access of a later unit gives way to one that a command will make in its begin cycle (08 R193). -/
def State.giveWay (s : State) (d : Nat) (a : Ask) : State :=
  ((s.grantedAsks d).filter fun b => b.age == a.age && a.rank < b.rank && b.banks.any a.banks.contains).foldl State.takeBack s

/-- The begin cycles that the issue of a cycle makes known: what they access in the next cycle is granted then (08 R193; log 21). -/
def State.lateGrants (s : State) (d : Nat) : State :=
  let ts := (s.tiles.filter fun e => dieOf e.1 == d).map (·.1)
  (ts.flatMap fun t => (s.beginAsks t).filter fun a => !(s.tile t).granteds.contains a.id).foldl (fun s a =>
    let u := s.giveWay d a
    if u.grantable a then (u.grantBanks a.banks).answerAsk a true else s) s

/-! ### LAYREG at its steps (R226) -/

/-- LAYREG ends with a failure status: its pins go back. -/
def State.failLayreg (s : State) (t : Nat) (x : XCmd) (code : Nat) : State :=
  (s.unpin (dieOf t) x.pinCount).modTile t fun y =>
    y.setX { x with pinCount := 0, pinned := [], stopped := true, value := some { val := BitVec.ofNat 64 (0xFFFFFFFFFFFFFF00 + code) } }

/-- Install a leaf in a tile's and its die's TLB, of 256 and 8,192 entries (12 R326). -/
def State.install (s : State) (t : Nat) (e : TlbEntry) : State :=
  let add := fun (l : List TlbEntry) (cap : Nat) => (e :: l.filter fun x => x != e).take cap
  (s.modTile t fun x => { x with tlb := add x.tlb 256 }).modDie (dieOf t) fun d => { d with tlb := add d.tlb 8192 }

/-- Take one translation. -/
def State.pinPiece (s : State) (t : Nat) (x : XCmd) (space off left : Nat) (w : Xlate) : State :=
  let seen := x.idents.contains w.ident
  let want := x.c.toNat
  if (bitAt want 0 && !bitAt w.attr.perm 0) || (bitAt want 1 && (!bitAt w.attr.perm 1 || w.attr.cow)) || !s.keyUsable w.attr.key x.tenant then
    s.failLayreg t x 0x0A
  else if !seen && 65532 ≤ x.pinCount then s.failLayreg t x 0x09
  else if !seen && 65536 ≤ (s.die (dieOf t)).pinsUsed then s.failLayreg t x 0x08
  else
    let n := min left (w.stop - off)
    let p : Space × Nat := if space = 0 then (.hbm, w.phys) else (.wstore (w.phys / 2 ^ 32), w.phys % 2 ^ 32)
    let g : Seg := { va := (s.localVa x.a).toNat + segsLen x.pinned, space := p.1, off := p.2, len := n, ord := w.attr.ord, key := w.attr.key }
    let s := if seen then s else s.modDie (dieOf t) fun d => { d with pinsUsed := d.pinsUsed + 1 }
    s.modTile t fun y => y.setX { x with
      pinned := x.pinned ++ [g], pinCount := if seen then x.pinCount else x.pinCount + 1
      idents := if seen then x.idents else w.ident :: x.idents, head := { x.head with steps := x.head.steps + 1 } }

/-- The lowest record index of a context that holds no record. -/
def Ctx.freeLayout (k : Ctx) : Option Nat :=
  (List.range 16).find? fun i => match FMap.get? k.layouts i with | some y => !y.live | none => true

/-- Translations that a range needs from an offset on, as they stand mapped: a page that is missing counts as one, up to the next GiB (R226;
log 66). `fuel` is one more than the most that matter. -/
def State.countXlates (s : State) (t tenant space : Nat) : Nat → Nat → Nat → List (Nat × Nat × Nat) → Nat
  | 0, _, _, ids => ids.length
  | fuel + 1, off, left, ids =>
    if left = 0 then ids.length
    else
      let found : Option Xlate :=
        match s.look t [] tenant space off with
        | .found w => some w
        | .walk => (match s.walk tenant space off with | .leaf e => some (e.xlate off) | _ => none)
        | _ => none
      match found with
      | some w =>
        let n := min left (w.stop - off)
        s.countXlates t tenant space fuel (off + n) (left - n) (if ids.contains w.ident then ids else w.ident :: ids)
      | none =>
        let n := min left (2 ^ 30 - off % 2 ^ 30)
        s.countXlates t tenant space fuel (off + n) (left - n) ((space, 0, off) :: ids)

/-- The space and offset that a layout's range starts at. -/
def State.layoutPlace (s : State) (x : XCmd) : Nat × Nat := (((GAddr.ofWord x.a).map (GAddr.local s)).bind GAddr.xspace).getD (0, 0)

/-- LAYREG's step 1 checks the record count and the translation count (R226). -/
def State.layregFirst (s : State) (t : Nat) (x : XCmd) : State :=
  let p := s.layoutPlace x
  if (s.ctx t x.head.ctx).freeLayout.isNone then s.failLayreg t x 0x07
  else if 65532 < s.countXlates t x.tenant p.1 65534 p.2 x.b.toNat [] then s.failLayreg t x 0x09
  else s

/-! ### Walks that are shared (12 R326) -/

/-- A request seeks the page of an offset. -/
def WalkReq.seeks (w : WalkReq) (space off : Nat) : Bool := w.res.isNone && w.space == space && w.off / 4096 == off / 4096

/-- A context's requests for a page, if it is of the tenant. -/
def Ctx.seeks (k : Ctx) (tenant space off : Nat) : Bool := k.tenant.toNat == tenant && k.walks.any fun w => w.seeks space off

/-- They take the result of the walk. -/
def Ctx.takeWalk (k : Ctx) (tenant space off : Nat) (r : WalkEnd) : Ctx :=
  if k.tenant.toNat = tenant then { k with walks := k.walks.map fun w => if w.seeks space off then { w with res := some r } else w } else k

/-- A LAYREG's next translation walks the tables for a page (R226). -/
def State.layregSeeks (s : State) (u tenant space off : Nat) (x : XCmd) : Bool :=
  let p := s.layoutPlace x
  let next := p.2 + segsLen x.pinned
  x.op == .layreg && x.head.st == .running && !x.stopped && segsLen x.pinned < x.b.toNat && x.tenant == tenant && p.1 == space
    && next / 4096 == off / 4096 && s.look u [] tenant space next == .walk

/-- The walk of a LAYREG ends: a leaf is in the tile's TLB for its step, another end is the fault of the step. -/
def State.layregWalked (s : State) (u : Nat) (x : XCmd) (r : WalkEnd) : State :=
  let va := x.a + BitVec.ofNat 64 (segsLen x.pinned)
  match r with
  | .leaf e => s.install u e
  | .unmapped => s.holdX u x .translation cUnmapped (2 + x.pinCount) va
  | .malformed l => s.holdX u x .translation cMalformed (2 + x.pinCount) va l

/-- A walk for a page that a tile of a die seeks ends: a leaf goes to the die's TLB and to those of the tiles that seek it, and every
request of the die for the page, which has joined the walk, takes its result (R326; 16 R380). -/
def State.endPage (s : State) (t tenant space off : Nat) (r : WalkEnd) : State :=
  let mine := s.tiles.filter fun e => dieOf e.1 == dieOf t
  let seeking := (mine.filter fun e => e.2.ctxs.any fun k => k.2.seeks tenant space off).map (·.1)
  let regs := mine.flatMap fun e => (e.2.xq.filter (s.layregSeeks e.1 tenant space off)).map fun x => (e.1, x)
  let s := match r with | .leaf e => seeking.foldl (fun s u => s.install u e) (s.hbmUsed 0) | _ => s.hbmUsed 0
  let s := seeking.foldl (fun s u => s.modTile u fun x => { x with ctxs := x.ctxs.map fun k => (k.1, k.2.takeWalk tenant space off r) }) s
  regs.foldl (fun s p => s.layregWalked p.1 p.2 r) s

/-- A step of LAYREG after the first: the next translation is walked and pinned, or the record is written. The index is taken only at the
last step, where a LAYREG that finds none left ends with NOSLOT (R226 leaves it open; log 66). -/
def State.layregStep (s : State) (t : Nat) (x : XCmd) : State :=
  let k := s.ctx t x.head.ctx
  let len := x.b.toNat
  let got := segsLen x.pinned
  if got < len then
    let p := s.layoutPlace x
    let off := p.2 + got
    let step := 2 + x.pinCount
    let va := x.a + BitVec.ofNat 64 got
    match s.look t [] x.tenant p.1 off with
    | .found w => s.pinPiece t x p.1 off (len - got) w
    | .malformed l => s.holdX t x .translation cMalformed step va l
    | .unmapped => s.holdX t x .translation cUnmapped step va
    | .walk =>
      let r := s.walk x.tenant p.1 off
      let s := s.endPage t x.tenant p.1 off r
      match r with
      | .leaf e => s.pinPiece t x p.1 off (len - got) (e.xlate off)
      | _ => s
  else
    match k.freeLayout with
    | none => s.failLayreg t x 0x07
    | some i =>
      let gen := match FMap.get? k.layouts i with | some y => y.gen | none => 1
      let y : Layout :=
        { live := true, gen := gen, va := (s.localVa x.a).toNat, len := len, canRead := bitAt x.c.toNat 0, canWrite := bitAt x.c.toNat 1
          segs := x.pinned, pins := x.pinCount, space := (s.layoutRange x.a len).getD 0 }
      (s.modCtx t x.head.ctx fun k => { k with layouts := FMap.insert k.layouts i y }).modTile t fun z =>
        z.setX { x with pinCount := 0, stopped := true, value := some { val := BitVec.ofNat 64 (gen.toNat * 2 ^ 16 + i) } }

/-! ### The begin of a command (R215) -/

/-- COPY_COMMAND_BEGIN (R215): step 1 changes nothing, but LAYREG makes its checks in it (R226). -/
def execCopyCommandBegin (s : State) : Host.Outcome State Fault Refusal :=
  let t := s.focus.tile
  match (s.tile t).findX s.focus.id with
  | none => .next s
  | some x =>
    if x.op == .burnish || x.op == .recipe then .next s
    else
      let (x, s) := s.tryWaitX t x
      if x.head.clear && s.mayBeginX t x (s.tickOf t) then
        let x := { x with head := { x.head with st := .running, waited := true, began := s.tickOf t, steps := 1 } }
        let s := s.modTile t fun y => y.setX x
        .next (if x.op == .layreg then s.layregFirst t x else s)
      else .next s

end Sys2Proof.Machine
end

