-- ==== Sys2Proof/Machine/Switch.lean ====
section
/-! DEFINITION. Switch memory (09 R235 to R246; 13 R366 to R368): sheets allocated, freed and queried, loads, stores and atomics of
a sheet, far acquires, what a completing X command does, and a switch declared lost. -/

namespace Sys2Proof.Machine

/-! ### Control words -/

/-- The control word of SMLD and SMST (Table 9.7). -/
structure SmCtl where
  reg : Bool
  len : Nat
  deriving DecidableEq, Repr

def SmCtl.ofWord (w : Word) : SmCtl := { reg := bitAt w.toNat 24, len := bits w.toNat 21 0 }

/-- A switch-operand trap. -/
def smBad (c : Bool) (v : Word) : List Check := failIf c (trapCheck cSwitchOperand v)

/-- Check 2 of R237 for SMLD and SMST: the control word, TD of the block form, the selector of SMLD's register form, the length and
alignment of the register form, the local range of the block form (R242; log 29). -/
def smCtlChecks (f : XSlot) (ctl loc addr : Word) (load : Bool) : List (List Check) :=
  let c := SmCtl.ofWord ctl
  [smBad (bits ctl.toNat 63 25 != 0 || bits ctl.toNat 23 22 != 0 || c.len == 0 || 0x200000 < c.len) ctl,
    if c.reg then firstOf [smBad (load && f.sc != 6#3) loc, smBad (c.len != 1 && c.len != 2 && c.len != 4 && c.len != 8) ctl,
      failIf (addr.toNat % c.len != 0) (trapCheck cAlignment addr)]
    else firstOf [smBad (f.td != 0#6) (f.td.zeroExtend 64), smBad (scratchLimit < loc.toNat + c.len) loc]]

/-- The attribute word of SMALLOC (Table 9.6). -/
structure SheetAttr where
  auto : Bool
  sw : Nat
  mir : Bool
  key : Nat
  perm : Nat
  ord : Nat

def SheetAttr.ofWord (w : Word) : SheetAttr :=
  let x := w.toNat
  { auto := bitAt x 18, sw := bits x 17 15, mir := bitAt x 14, key := bits x 13 4, perm := bits x 3 2, ord := bits x 1 0 }

def sheetAttrBad (w : Word) : Bool :=
  let a := SheetAttr.ofWord w
  w.toNat / 2 ^ 19 != 0 || (a.auto && a.sw != 0) || a.perm == 0 || a.ord == 3

/-! ### Issue (R237) -/

/-- The place of an access to a sheet. -/
def State.sheetSide (s : State) (addr : Word) (len : Nat) : Side :=
  match GAddr.ofWord addr with
  | some (.switch _ sw _ sheet off) =>
    let h := s.sheet sw sheet
    { va := addr.toNat, len := len
      segs := [{ va := addr.toNat, space := .switch sw, off := sheet * sheetSize + off, len := len, ord := h.ord, key := h.key }] }
  | _ => { va := addr.toNat, len := len }

/-- Checks 3 to 5 of R237. -/
def State.smAccess (s : State) (addr : Word) (len : Nat) (read write : Bool) : List Check :=
  match GAddr.ofWord addr with
  | none => [trapCheck cGlobalAddress addr]
  | some g => s.sheetFails s.cur addr g len read write

/-- The ordering attribute of a sheet an address names. -/
def State.sheetOrd (s : State) (addr : Word) : Nat :=
  match (s.sheetSide addr 1).segs with
  | g :: _ => g.ord
  | [] => 1

/-- Check 6 of R237: ordering on a UN sheet (08 R198), poisoned data for an SO or RC sheet (08 R199). -/
def smOrder (s : State) (addr : Word) (ord : Nat) (data : Option SReg) : List (List Check) :=
  [failIf (ord != 0 && s.sheetOrd addr == 0) (trapCheck cOrderAttr addr),
    failIf (s.sheetOrd addr != 0 && (match data with | some v => v.poison | none => false)) (trapCheck cPoison addr)]

/-- A far acquire of the X slot (R235, R236): accepted once, it holds its bundle until it is back; the bundle then commits with
what it brought. -/
def smFar (s : State) (f : XSlot) (x : XCmd) (addr : Word) (checks : List (List Check)) (nonRep : Bool) : Plan :=
  match s.cur.farAcq with
  | none =>
    { checks := firstOf (checks ++ [s.cur.syncFails (s.cur.syncReg f.sy.toNat), failIf s.cur.inFtr (breachCheck 4),
        fullCheck s f.ch.toNat, [holdCheck .watermark 4 0 0 (.farAccept { x with far := true })]]) }
  | some q =>
    match q.back with
    | none => { checks := [holdCheck .watermark 4] }
    | some (v, p, _) =>
      { checks := firstOf [s.farOther q, failIf p (trapCheck cPoisonSync addr phOther .farOver)]
        freeResults := if f.td = 0#6 then [] else [⟨1, .scalar f.td.toNat { val := v }, 0⟩]
        nonRep := nonRep
        act := fun s =>
          match s.curTile.findX q.id with
          | none => s
          | some y =>
            ((s.modCurTile fun z => z.dropX q.id).completeCmd s.issue.tile y.head 0 y.head.written false).modCur fun k =>
              { k with farAcq := none } }

/-- The plan of an access to a sheet: its checks, then its acceptance. -/
def smPlan (s : State) (f : XSlot) (x : XCmd) (addr : Word) (checks : List (List Check)) (nonRep : Bool) : Plan :=
  if x.ord % 2 = 1 then smFar s f x addr checks nonRep
  else
    { checks := firstOf (checks ++ endChecks s f)
      nonRep := nonRep
      act := fun s => s.acceptX { x with head := s.mkHead 6 f.sy.toNat } }

/-- SMLD and SMST (R242). -/
def smMove (f : XSlot) (load : Bool) (ord : Nat) : State → Host.Outcome State Fault Refusal :=
  issueOp fun s =>
    let h := s.plainOp f.sa
    let o := s.plainOp f.sb
    let loc := s.plainOp f.sc
    let ctl := s.plainOp f.sd
    let c := SmCtl.ofWord ctl.val
    let addr := h.val + o.val
    let sheet := s.sheetSide addr c.len
    let near : Side := if c.reg then {} else localSide s.issue.tile loc.val.toNat c.len
    let x := { mkX s f (if load then .smld else .smst) with
      ord := ord
      dataPoison := c.reg && !load && loc.poison
      src := if load then sheet else near
      dst := if load then near else sheet
      reads := if load then sheet.segs else near.segs
      writes := if load then near.segs else sheet.segs }
    smPlan s f x addr
      ([failIf (h.poison || o.poison || ctl.poison || (!c.reg && loc.poison)) (trapCheck cPoison addr)]
        ++ smCtlChecks f ctl.val loc.val addr load ++ [s.smAccess addr c.len load (!load)]
        ++ smOrder s addr ord (if c.reg && !load then some loc else none)) false

/-- SMLD (R242). -/
def execSmld (f : XSlot) : State → Host.Outcome State Fault Refusal := smMove f true 0
/-- SMLD.acq (R242, R235). -/
def execSmldAcq (f : XSlot) : State → Host.Outcome State Fault Refusal := smMove f true 1
/-- SMST (R242). -/
def execSmst (f : XSlot) : State → Host.Outcome State Fault Refusal := smMove f false 0
/-- SMST.rel (R242). -/
def execSmstRel (f : XSlot) : State → Host.Outcome State Fault Refusal := smMove f false 2

/-- SMATOM (R243). -/
def smAtom (f : XSlot) (op : AtomOp) : State → Host.Outcome State Fault Refusal :=
  issueOp fun s =>
    let h := s.plainOp f.sa
    let o := s.plainOp f.sb
    let v := s.plainOp f.sc
    let cmp := s.plainOp f.sd
    let addr := h.val + o.val
    let sheet := s.sheetSide addr 8
    let x := { mkX s f (.smatom op) with dst := sheet, reads := sheet.segs, writes := sheet.segs }
    smPlan s f x addr
      ([failIf (h.poison || o.poison || v.poison || (op == .cas && cmp.poison)) (trapCheck cPoison addr),
          failIf (addr.toNat % 8 != 0) (trapCheck cAlignment addr), s.smAccess addr 8 true true]
        ++ smOrder s addr f.ord.toNat none) true

/-- SMATOM.add (R243). -/
def execSmatomAdd (f : XSlot) : State → Host.Outcome State Fault Refusal := smAtom f .add
/-- SMATOM.swap (R243). -/
def execSmatomSwap (f : XSlot) : State → Host.Outcome State Fault Refusal := smAtom f .swap
/-- SMATOM.cas (R243). -/
def execSmatomCas (f : XSlot) : State → Host.Outcome State Fault Refusal := smAtom f .cas
/-- SMATOM.min.i (R243). -/
def execSmatomMinI (f : XSlot) : State → Host.Outcome State Fault Refusal := smAtom f .minI
/-- SMATOM.max.i (R243). -/
def execSmatomMaxI (f : XSlot) : State → Host.Outcome State Fault Refusal := smAtom f .maxI
/-- SMATOM.min.n (R243). -/
def execSmatomMinN (f : XSlot) : State → Host.Outcome State Fault Refusal := smAtom f .minN
/-- SMATOM.max.n (R243). -/
def execSmatomMaxN (f : XSlot) : State → Host.Outcome State Fault Refusal := smAtom f .maxN

/-- SMALLOC (R239). -/
def execSmalloc (f : XSlot) : State → Host.Outcome State Fault Refusal :=
  issueOp fun s =>
    let a := s.plainOp f.sa
    { checks := firstOf ([failIf a.poison (trapCheck cPoison a.val), smBad (sheetAttrBad a.val) a.val] ++ endChecks s f)
      nonRep := true
      act := fun s => s.acceptX (mkX s f .smalloc) }

/-- SMFREE (R240): checks 1 to 4 of R237. -/
def execSmfree (f : XSlot) : State → Host.Outcome State Fault Refusal :=
  issueOp fun s =>
    let h := s.plainOp f.sa
    let stale := match GAddr.ofWord h.val with
      | some (.switch gen sw mir n _) => !((s.sheet sw n).named sw) || (s.sheet sw n).gen.toNat != gen || (s.sheet sw n).mir != mir
      | _ => false
    let isSheet := match GAddr.ofWord h.val with | some (.switch _ _ _ _ _) => true | _ => false
    let side := { s.sheetSide h.val sheetSize with va := h.val.toNat }
    { checks := firstOf ([failIf h.poison (trapCheck cPoison h.val), smBad (bits h.val.toNat 63 60 == 3 && bits h.val.toNat 20 0 != 0) h.val,
        failIf (!isSheet) (trapCheck cGlobalAddress h.val), failIf stale (trapCheck cStaleHandle h.val)] ++ endChecks s f)
      nonRep := true
      act := fun s => s.acceptX { mkX s f .smfree with writes := side.segs } }

/-- SMQUERY (R241). -/
def execSmquery (f : XSlot) : State → Host.Outcome State Fault Refusal :=
  issueOp fun s =>
    let a := s.plainOp f.sa
    { checks := firstOf ([failIf a.poison (trapCheck cPoison a.val), smBad (128 ≤ a.val.toNat || 5 < bits a.val.toNat 3 0) a.val]
        ++ endChecks s f)
      act := fun s => s.acceptX (mkX s f .smquery) }

/-! ### Allocation (R238 to R241) -/

def sheetCount : Nat := 262144

/-- The switch is lost or the package's port to it is down. -/
def Switch.down (w : Switch) : Bool := w.lost || !w.portUp
/-- A sheet number that SMALLOC cannot take. -/
def Sheet.taken (h : Sheet) : Bool := h.live || h.retired
def Switch.takenCount (w : Switch) : Nat := w.sheets.countP fun e => e.2.taken
/-- Sheets a tenant holds on switch i: not those whose other half serves alone. -/
def Switch.held (w : Switch) (i tenant : Nat) : Nat :=
  w.sheets.countP fun e => e.2.live && e.2.tenant == tenant && (match e.2.alone with | some v => v == i | none => true)
def Switch.quotaOf (w : Switch) (tenant : Nat) : Nat := FMap.getD w.quota tenant 0

/-- The switches that hold a sheet of a switch. -/
def pairOfSwitch (w : Nat) (mir : Bool) : List Nat := if mir then [w, (w + 4) % 8] else [w]

/-- A sheet number is free on some switches. -/
def State.sheetFree (s : State) (ws : List Nat) (n : Nat) : Bool := ws.all fun w => !(s.sheet w n).taken

/-- The first free number from one on, around; `fuel` is one more than the numbers taken. -/
def State.freeSheet (s : State) (ws : List Nat) : Nat → Nat → Option Nat
  | 0, _ => none
  | fuel + 1, n => if s.sheetFree ws n then some n else s.freeSheet ws fuel ((n + 1) % sheetCount)

/-- The status of a switch for an allocation: a number to take, or a code of Table 9.4 (R239). -/
def State.allocOn (s : State) (tenant w : Nat) (mir : Bool) (start : Nat) : Except Nat Nat :=
  let ws := pairOfSwitch w mir
  if ws.any fun v => (s.switch v).down then .error 3
  else if ws.any fun v => (s.switch v).quotaOf tenant ≤ (s.switch v).held v tenant then .error 1
  else
    let taken := ws.foldl (fun a v => a + (s.switch v).takenCount) 0
    match s.freeSheet ws (min (taken + 1) sheetCount) (start % sheetCount) with
    | some n => .ok n
    | none => .error 2

/-- The switches tried in order: the first that succeeds, else the status of the last. -/
def State.allocTry (s : State) (tenant : Nat) (mir : Bool) (start : Nat) : List Nat → Nat → Except Nat (Nat × Nat)
  | [], code => .error code
  | w :: rest, _ =>
    match s.allocOn tenant w mir start with
    | .ok n => .ok (w, n)
    | .error c => s.allocTry tenant mir start rest c

/-- A failure status (R225). -/
def failStatus (code : Nat) : Word := BitVec.ofNat 64 (0xFFFFFFFFFFFFFF00 + code)

/-- A sheet's handle (Table 8.2). -/
def sheetHandle (gen w : Nat) (mir : Bool) (n : Nat) : Word :=
  BitVec.ofNat 64 (3 * 2 ^ 60 + gen * 2 ^ 43 + w * 2 ^ 40 + bit01 mir * 2 ^ 39 + n * 2 ^ 21)

/-- The sheet that SMALLOC makes: it reads as zero. -/
def SheetAttr.make (a : SheetAttr) (gen : BitVec 16) (tenant w : Nat) (pair : BitVec 512) : Sheet :=
  { gen := gen
    live := true
    tenant := tenant
    ord := a.ord
    perm := a.perm
    key := a.key
    mir := a.mir
    primary := w
    pair := pair
    hasPair := true }

/-- SMALLOC at the hub: its value, and the sheet made (R239). Which free number is taken is free (log 30). -/
def State.smalloc (s : State) (tenant : Nat) (attr : Word) : Word × State :=
  let a := SheetAttr.ofWord attr
  if !s.keyUsable a.key tenant then (failStatus 4, s)
  else
    let (start, s) := s.draw
    let order := if a.auto then (List.range 8).map fun i => (s.nodeId + i) % 8 else [a.sw]
    match s.allocTry tenant a.mir start order 3 with
    | .error c => (failStatus c, s)
    | .ok (w, n) =>
      let make := fun (h : Sheet) => a.make h.gen tenant w (s.pairOf a.key)
      (sheetHandle (s.sheet w n).gen.toNat w a.mir n, (pairOfSwitch w a.mir).foldl (fun s v => s.modSheet v n make) s)

/-- A sheet is free again: its generation steps, and one that would pass 65,535 retires (R238). -/
def Sheet.free (h : Sheet) : Sheet := if h.gen = 0xFFFF then { gen := h.gen, retired := true } else { gen := h.gen + 1 }

/-- The switches whose tables list a sheet: its own, and the other of a pair unless that has been restored without it (R240, R244). -/
def State.listed (s : State) (w n : Nat) : List Nat :=
  let h := s.sheet w n
  let v := (w + 4) % 8
  let y := s.sheet v n
  if h.mir && y.live && y.mir && y.primary == h.primary then [w, v] else [w]

/-- SMFREE at the switch that serves the sheet (R240, R244). -/
def State.smfree (s : State) (tenant : Nat) (h : Word) : Word × State :=
  match GAddr.ofWord h with
  | some (.switch gen w _ n _) =>
    let x := s.sheet w n
    if (s.switch (s.home w n)).down then (failStatus 3, s)
    else if !x.named w || x.gen.toNat != gen then (failStatus 5, s)
    else if x.tenant != tenant then (failStatus 6, s)
    else (0, (s.listed w n).foldl (fun s v => s.modSheet v n Sheet.free) s)
  | _ => (failStatus 5, s)

/-- SMQUERY (R241, 13 R372). -/
def State.smquery (s : State) (t tenant : Nat) (sel : Word) : Word :=
  let i := bits sel.toNat 6 4
  let w := s.switch i
  match bits sel.toNat 3 0 with
  | 0 => BitVec.ofNat 64 (w.quotaOf tenant)
  | 1 => BitVec.ofNat 64 (w.held i tenant)
  | 2 => BitVec.ofNat 64 (sheetCount - w.takenCount)
  | 3 => BitVec.ofNat 64 w.lossGen
  | 4 => BitVec.ofNat 64 (bit01 w.portUp)
  | _ =>
    let r := FMap.getD (s.tile t).channels i ({} : ChannelRecord)
    BitVec.ofNat 64 (r.status.toNat + r.prefLen * 2 ^ 16)

/-! ### What the hub and the switch do for a command -/

/-- The new value of an atomic (R243). -/
def AtomOp.apply (op : AtomOp) (old v cmp : Word) : Word :=
  match op with
  | .add => old + v
  | .swap => v
  | .cas => if old = cmp then v else old
  | .minI => if v.toInt < old.toInt then v else old
  | .maxI => if old.toInt < v.toInt then v else old
  | .minN => if v.toNat < old.toNat then v else old
  | .maxN => if old.toNat < v.toNat then v else old

/-- The switch applies an atomic under the pair it holds for the sheet (R334); without the pair it returns a free value (log 10). -/
def State.smatom (s : State) (x : XCmd) (op : AtomOp) : SReg × State :=
  match x.dst.segs with
  | g :: _ =>
    match g.space with
    | .switch w =>
      let n := g.off / sheetSize
      let off := g.off % sheetSize
      let h := s.sheet (s.home w n) n
      if !h.hasPair then ({ val := BitVec.ofNat 64 (Config.freeNat s.free), poison := true }, { s with free := s.free + 1 })
      else
        let tweak := sheetTweak w n (s.sheet w n).gen.toNat
        let raw := h.read h.pair tweak off 8
        let old := BitVec.ofNat 64 (bytesVal raw)
        if bytesPoison raw then ({ val := old, poison := true }, s)
        else ({ val := old }, s.modSheets w n fun y => y.write h.pair tweak off (valBytes 8 (op.apply old x.c x.d).toNat false))
    | _ => ({}, s)
  | [] => ({}, s)

/-- The command has its value. -/
def State.answerX (s : State) (t : Nat) (x : XCmd) (v : SReg) (written : Nat) : State :=
  s.modTile t fun y => y.setX { x with value := some v, stopped := true, head := { x.head with written := written, steps := 2 } }

/-- A step of a command that the hub or a switch answers: its one access, or a non-OK status (R216). -/
def State.switchStep (s : State) (t : Nat) (x : XCmd) : State :=
  if s.waitsFor (dieOf t) x.head.id true (x.reads ++ x.writes) || (s.die (dieOf t)).downLinks.contains 4 then s
  else
    match x.op with
    | .smalloc => let r := s.smalloc x.tenant x.a; r.2.answerX t x { val := r.1 } 0
    | .smfree => let r := s.smfree x.tenant x.a; r.2.answerX t x { val := r.1 } 0
    | .smquery => s.answerX t x { val := s.smquery t x.tenant x.a } 0
    | .smld =>
      let n := (SmCtl.ofWord x.d).len
      let bad := s.sideBad x.src
      let bytes := if bad = 0 then s.readSide x.src.segs 0 n else s.lostBytes n
      let s := if bad = 0 then s else { s with free := s.free + 1 }
      s.answerX t { x with status := bad } { val := BitVec.ofNat 64 (bytesVal bytes), poison := bytesPoison bytes } 0
    | .smst =>
      let n := (SmCtl.ofWord x.d).len
      let bad := s.sideBad x.dst
      if bad != 0 then s.answerX t { x with status := bad } {} 0
      else (s.writeSide x.dst.segs 0 (valBytes n (x.c.toNat % 2 ^ (8 * n)) x.dataPoison)).answerX t x {} n
    | .smatom op =>
      let bad := s.sideBad x.dst
      if bad != 0 then
        ({ s with free := s.free + 1 } : State).answerX t { x with status := bad } { val := BitVec.ofNat 64 (Config.freeNat s.free), poison := true } 0
      else let r := s.smatom x op; r.2.answerX t x r.1 (if r.1.poison then 0 else 8)
    | _ => s

/-- A command that moves bytes has none left to move: its units are done, or it ends after the one under way. -/
def XCmd.moved (x : XCmd) : Bool :=
  x.stopped || x.units ≤ x.done || (x.status != 0 && !x.delivers && !x.mayPut)

/-- What a far acquire of the X slot brings back: the value of the register forms; of a block only whether all of its bytes came
unpoisoned, and it is back once they are written, or with poison once they are fetched (R236). -/
def XCmd.farBack (x : XCmd) : Option SReg :=
  if x.moves then
    if x.moved then some { poison := x.status != 0 }
    else if x.src.len ≤ x.srcAt && bytesPoison x.buf then some { poison := true }
    else none
  else if x.stopped then x.value.map fun v => { v with poison := v.poison || x.status != 0 }
  else none

/-- FAR_ACQUIRE_REPLY (R235): what a far acquire brings back reaches its context, whose bundle then commits. -/
def execFarAcquireReply (s : State) : Host.Outcome State Fault Refusal :=
  let t := s.focus.tile
  let c := s.focus.ctx
  let id := s.focus.id
  let give := fun (s : State) (got : Word × Bool × Flags) =>
    s.modCtx t c fun k => { k with farAcq := k.farAcq.map fun q => if q.id = id then { q with back := some got } else q }
  match s.mesh.find? fun r => r.id == id && r.far with
  | some r =>
    match r.backAt with
    | none => .next s
    | some n =>
      if n ≤ s.tickOf t then .next (give { s with mesh := s.mesh.filter fun q => q.id != id } r.got)
      else .next s
  | none =>
    match (s.tile t).findX id with
    | none => .next s
    | some x =>
      match (if x.far then x.farBack else none) with
      | some v => .next (give s (v.val, v.poison, 0))
      | none => .next s

/-! ### Completion (R216, R38, R371, R372) -/

/-- A command of the copy engine has done its last step. -/
def XCmd.finished (x : XCmd) (now : Nat) : Bool :=
  x.head.st == .running && !x.far && x.head.began < now &&
    match x.op with
    | .copy | .gather | .scatter => x.moved
    | .smld | .smst => if x.moves then x.moved else x.stopped
    | .laydrop => true
    | .burnish | .recipe => false
    | _ => x.stopped

/-- The value that lands in TD: poisoned with a non-OK status. -/
def XCmd.result (x : XCmd) : Option SReg :=
  if x.td = 0 then none else x.value.map fun v => { v with poison := v.poison || x.status != 0 }

/-- COPY_COMMAND_COMPLETION (R216): the value lands through a free port, a non-OK status is recorded with the prefix done, pins that
LAYDROP frees go back, and the command signals. -/
def execCopyCommandCompletion (s : State) : Host.Outcome State Fault Refusal :=
  let t := s.focus.tile
  let now := s.tickOf t
  match (s.tile t).findX s.focus.id with
  | none => .next s
  | some x =>
    let c := x.head.ctx
    let dest : Dest := .scalar x.td (x.result.getD {})
    if !x.finished now || (x.result.isSome && !(s.ctx t c).portFree now dest) then .next s
    else
      let s := if x.result.isSome then s.modCtx t c fun k => (dest.land k).usePort now dest else s
      let rec' : ChannelRecord := { status := BitVec.ofNat 8 x.status, prefLen := if x.moves then x.done else 0 }
      let s := if x.status = 0 then s else s.modTile t fun y => { y with channels := FMap.insert y.channels x.ch rec' }
      let s := if x.op == .laydrop then s.unpin (dieOf t) x.pinCount else s
      .next ((s.modTile t fun y => y.dropX x.head.id).completeCmd t x.head 0 x.head.written (x.status != 0))

/-! ### Loss and failover (R246, 13 R366 to R368) -/

/-- An entry of a pair's tables when switch w is lost: an unmirrored sheet on it is lost and its generation steps (R246); a mirrored one is
served by the other half alone from now on, or lost with w when w served it alone (R244). -/
def Sheet.lose (h : Sheet) (w : Nat) (own : Bool) : Sheet :=
  if !h.live then h
  else if !h.mir then (if own then h.free else h)
  else
    match h.alone with
    | none => { h with alone := some ((w + 4) % 8) }
    | some v => if v = w then h.free else h

/-- A switch declared lost (R246, R244, 13 R367): its unmirrored sheets are lost, its mirrored ones are served by the other half. -/
def State.loseSwitch (s : State) (w : Nat) : State :=
  let x := s.switch w
  let fail := x.sheets.any fun e => e.2.live && e.2.mir && e.2.primary == w && e.2.alone.isNone
  let x := { x with lost := true, lossGen := x.lossGen + 1, failover := fail, sheets := x.sheets.map fun e => (e.1, e.2.lose w true) }
  let v := (w + 4) % 8
  let y := s.switch v
  let y := { y with sheets := y.sheets.map fun e => (e.1, e.2.lose w false) }
  { s with switches := FMap.insert (FMap.insert s.switches v y) w x }

/-- SWITCH_LOSS_DECLARED (13 R367, R246). -/
def execSwitchLossDeclared (s : State) : Host.Outcome State Fault Refusal :=
  let w := s.focus.id
  if 8 ≤ w || (s.switch w).lost then .next s else .next (s.loseSwitch w)

/-- MIRROR_FAILOVER_COMPLETE (13 R368): accesses that waited go on, at the surviving half. -/
def execMirrorFailoverComplete (s : State) : Host.Outcome State Fault Refusal :=
  let w := s.focus.id
  let x := { s.switch w with failover := false }
  if (s.switch w).failover then .next { s with switches := FMap.insert s.switches w x } else .next s

end Sys2Proof.Machine
end

