-- ==== Sys2Proof/Machine/Burnish.lean ====
section
/-! DEFINITION. The burnishers (07 R168 to R180): the recipe image, the update of one weight, BURNISH at issue, when it begins, its
stripes and how it completes. -/

namespace Sys2Proof.Machine

/-! ### Recipes (R170, Table 7.1) -/

/-- A nonnegative dyadic: mantissa and exponent. -/
abbrev Dyadic := Nat × Int

structure RecipeImage where
  eta : Dyadic
  b1 : Dyadic
  c1 : Dyadic
  b2 : Dyadic
  c2 : Dyadic
  eps : Nat
  q : Int
  dmax : Dyadic
  stipple : Bool
  deriving DecidableEq, Repr

/-- A finite, nonnegative FP32 field; a zero of either sign counts as zero. -/
def fpField (x : Nat) : Option Dyadic :=
  match fp32.decode x with
  | .fin neg m e => if neg && m != 0 then none else some (m, e)
  | _ => none

/-- A field that must exceed zero. -/
def fpPositive (x : Nat) : Option Dyadic := (fpField x).filter fun d => d.1 != 0
/-- A field in [0, 1]. -/
def fpUnit (x : Nat) : Option Dyadic := (fpField x).filter fun d => dyLe d (1, 0)

/-- The recipe of a 64-byte image, when the image is valid. -/
def RecipeImage.parse (image : List Byte) : Option RecipeImage :=
  let x := ofBytes image
  let rnd := bits x 226 224
  let eps := bits x 175 160
  if x / 2 ^ 227 != 0 || !(rnd == 0 || rnd == 4) || eps == 0 || 0x7FFF < eps then none
  else
    match fpPositive (bits x 31 0), fpUnit (bits x 63 32), fpUnit (bits x 95 64), fpUnit (bits x 127 96), fpUnit (bits x 159 128),
      fpPositive (bits x 223 192) with
    | some eta, some b1, some c1, some b2, some c2, some dmax =>
      some { eta := eta, b1 := b1, c1 := c1, b2 := b2, c2 := c2, eps := eps, q := signExt (bits x 191 176) 16, dmax := dmax, stipple := rnd == 4 }
    | _, _, _, _, _, _ => none

/-! ### The update of a weight (R172) -/

def dyMul (x y : Dyadic) : Dyadic := (x.1 * y.1, x.2 + y.2)
def dyAdd (x y : Dyadic) : Dyadic :=
  let q := min x.2 y.2
  (scaleTo x.1 x.2 q + scaleTo y.1 y.2 q, q)
/-- A signed sum of two dyadics as an integer at an exponent. -/
def dySum (n1 : Bool) (x : Dyadic) (n2 : Bool) (y : Dyadic) : Int × Int :=
  let q := min x.2 y.2
  let a : Int := scaleTo x.1 x.2 q
  let b : Int := scaleTo y.1 y.2 q
  ((if n1 then -a else a) + (if n2 then -b else b), q)

/-- RoundFP32 of R172: overflow is held at the largest finite magnitude and sets SAT. A result of exactly zero is +0, whatever zeros
made it: the arithmetic before it is rational (log 82). -/
def roundHeld (z e : Int) : Nat × Flags :=
  let (p, f) := fp32.ofNum .rne 0 (Num.ofInt z e)
  if f &&& flOF != 0#6 then (fp32.signed (z < 0) fp32.maxPat, flSAT ||| flNX) else (p, f)

/-- A weight, its moments after the update, and the flags of the update. -/
structure Updated where
  w : Nat
  m : Nat
  v : Nat
  flags : Flags
  deriving DecidableEq, Repr

/-- The second moment after the update: its code and flags. -/
def secondMoment (r : RecipeImage) (g : Dyadic) (v : Nat) : Nat × Flags :=
  let old : Dyadic := match lm16Decode v with | .num _ k => lin k 256 | _ => (0, 0)
  let sum := dyAdd (dyMul r.b2 old) (dyMul r.c2 (dyMul g g))
  if sum.1 = 0 then (0, 0#6)
  else
    let (k, inexact) := roundLinToGrid 256 .rne 0 false sum.1 sum.2
    let (w, f) := lm16OfGrid false k
    (w, f ||| flagIf inexact flNX)

/-- The step D in units of 2^−8 code, from the first moment and the floor of the second. -/
def stepD (r : RecipeImage) (w : Nat) (m1 : Num) (h : Int) : Int :=
  match m1 with
  | .fin neg m e =>
    let u := dyMul (m, e) (lin (-h) 512)
    let uc := if dyLe u r.dmax then u else r.dmax
    let p := dyMul r.eta uc
    (roundInt .rne 0 (neg != bitAt w 15) p.1 (p.2 + 16)).1
  | _ => 0

/-- The new code of a nonzero weight, and the flags of its rounding and clamps. -/
def newCode (r : RecipeImage) (w : Nat) (d : Int) (draw : Nat) : Nat × Flags :=
  let x : Int := 256 * (w % 0x8000 : Nat) - d
  let a := x / 256
  let rem := (x - 256 * a).toNat
  let up :=
    if rem = 0 then false
    else if r.stipple then draw < rem * 256
    else 128 < rem || (rem == 128 && a % 2 != 0)
  let c := if up then a + 1 else a
  let nx := flagIf (rem != 0) flNX
  if 32767 < c then (32767, nx ||| flSAT) else if c < 1 then (1, nx ||| flUF) else (c.toNat, nx)

/-- BurnishOne (R172), poison apart. -/
def burnishOne (r : RecipeImage) (w g m v : Nat) (draw : Nat) : Updated :=
  match fp32.decode g, fp32.decode m with
  | .fin ng mg eg, .fin nm mm em =>
    if w = 0x8000 || v = 0x8000 then { w := w, m := m, v := v, flags := flNV }
    else
      let (z, e) := dySum nm (dyMul r.b1 (mm, em)) ng (dyMul r.c1 (mg, eg))
      let (m1, f1) := roundHeld z e
      let (v1, f2) := secondMoment r (mg, eg) v
      let fl := f1 ||| f2
      if w % 0x8000 = 0 then { w := w, m := m1, v := v1, flags := fl }
      else
        let h0 : Int := (r.eps : Int) - 16384
        let h := if v1 = 0 then h0 else max h0 ((v1 % 0x8000 : Nat) - 16384)
        let (c, f3) := newCode r w (stepD r w (fp32.decode m1) h) draw
        { w := (if bitAt w 15 then 0x8000 else 0) + c, m := m1, v := v1, flags := fl ||| f3 }
  | _, _ => { w := w, m := m, v := v, flags := flNV }

/-- An RDW gradient as FP32, with its flags (R172, 03 R75). -/
def rdwGradient (q : Int) (b : List Byte) : Nat × Flags :=
  let u : Rdw := ⟨BitVec.ofNat 64 (ofBytes (b.take 8)), BitVec.ofNat 64 (ofBytes ((b.drop 8).take 8)), BitVec.ofNat 64 (ofBytes (b.drop 16))⟩
  fp32.ofNum .rne 0 (u.toNum q)

/-! ### A group (R171, R173) -/

/-- Bytes of one element's gradient. -/
def BurnishCtl.elem (c : BurnishCtl) : Nat := if c.gf = 1 then 24 else 4

/-- One weight of a group: its bytes, the moments' bytes, and the flags reported. -/
def groupWeight (r : RecipeImage) (c : BurnishCtl) (seed step : Word) (i k : Nat) (ws gs ps : List (Byte × Bool)) :
    List (Byte × Bool) × List (Byte × Bool) × List (Byte × Bool) × Flags :=
  let wb := (ws.drop (2 * k)).take 2
  let gb := (gs.drop (c.elem * k)).take c.elem
  let mb := (ps.drop (4 * k)).take 4
  let vb := (ps.drop (256 + 2 * k)).take 2
  let p := bytesPoison wb || bytesPoison gb || bytesPoison mb || bytesPoison vb
  let (g, gf) := if c.gf = 1 then rdwGradient r.q (gb.map (·.1)) else (bytesVal gb, 0#6)
  let u := burnishOne r (bytesVal wb) g (bytesVal mb) (bytesVal vb) (stippleDraw seed step (64 * (c.gofs + i) + k) 0)
  (valBytes 2 u.w p, valBytes 4 u.m p, valBytes 2 u.v p, if p then 0#6 else gf ||| u.flags)

/-- Bytes of gradient and state that one group reads. -/
def BurnishCtl.groupBytes (c : BurnishCtl) : Nat := 64 * c.elem + 384

/-! ### Weights by their 32-byte units (R167, R168) -/

/-- Bytes of a unit of the weight store that lie before a command's first weight. -/
def XCmd.skew (x : XCmd) : Nat := match x.pinned with | g :: _ => g.off % 32 | [] => 0

/-- The unit that holds a byte of the command's weights, counted from the unit of the first. -/
def XCmd.unitOf (x : XCmd) (n : Nat) : Nat := (x.skew + n) / 32

/-- The bytes of the command's weights that a unit holds: the first, and how many. -/
def XCmd.weightUnit (x : XCmd) (u : Nat) : Nat × Nat :=
  let lo := 32 * u - x.skew
  (lo, min (32 * (u + 1) - x.skew) (128 * (BurnishCtl.ofWord x.d).groups) - lo)

/-- The units that hold the weights of n groups from group i on. -/
def XCmd.unitsFrom (x : XCmd) (i n : Nat) : List Nat :=
  rangeFrom (x.unitOf (128 * i)) (x.unitOf (128 * (i + n) - 1) - x.unitOf (128 * i) + 1)

/-- The weights of the next group have been read. -/
def XCmd.hasWeights (x : XCmd) : Bool := (x.unitsFrom x.groups 1).all fun u => (FMap.get? x.ahead u).isSome

/-- The weights of the next group, as they were read. -/
def XCmd.weights (x : XCmd) : List (Byte × Bool) :=
  let us := x.unitsFrom x.groups 1
  ((us.flatMap fun u => FMap.getD x.ahead u []).drop (128 * x.groups - (x.weightUnit (x.unitOf (128 * x.groups))).1)).take 128

/-- The new weights of the next group join those that wait to be written. -/
def XCmd.joinTail (x : XCmd) (ws : List (Byte × Bool)) : FMap (List (Byte × Bool)) :=
  let at' := 128 * x.groups
  (x.unitsFrom x.groups 1).foldl (fun m u =>
    let (lo, n) := x.weightUnit u
    let a := max lo at' - at'
    FMap.insert m u (FMap.getD m u [] ++ (ws.drop a).take (min (lo + n - at') 128 - a))) x.tail

/-- The next group is updated (R171 to R173): its new weights and its new state panel wait to be written, and its weights report flags. -/
def XCmd.burnishGroup (x : XCmd) (r : RecipeImage) : XCmd :=
  let c := BurnishCtl.ofWord x.d
  let out := (List.range 64).map fun k =>
    groupWeight r c x.head.seed x.head.step x.groups k x.weights x.buf (x.buf.drop (64 * c.elem))
  { x with
    groups := x.groups + 1
    buf := []
    tail := x.joinTail (out.flatMap (·.1))
    panel := x.panel ++ out.flatMap (·.2.1) ++ out.flatMap (·.2.2.1)
    ahead := x.ahead.filter fun e => 128 * (x.groups + 1) < (x.weightUnit e.1).1 + (x.weightUnit e.1).2
    head := { x.head with flags := x.head.flags ||| Sys2Proof.Machine.orFlags (out.map (·.2.2.2)) } }

/-! ### The pool (R169) -/

/-- Groups that the die's 32 burnishers took in this cycle and in the one before. -/
def Die.poolNow (d : Die) : Nat × Nat :=
  let (at', now, before) := d.poolUse
  if at' = d.tick then (now, before) else if at' + 1 = d.tick then (0, now) else (0, 0)

/-- A burnisher is free: each takes two cycles for a group. -/
def Die.poolFree (d : Die) : Bool := d.poolNow.1 + d.poolNow.2 < 32
/-- A burnisher takes a group. -/
def Die.poolTake (d : Die) : Die := { d with poolUse := (d.tick, d.poolNow.1 + 1, d.poolNow.2) }

/-- Stripes of a command, of 512 groups. -/
def BurnishCtl.stripes (c : BurnishCtl) : Nat := (c.groups + 511) / 512

/-- HBM bytes per group (R177). -/
def BurnishCtl.traffic (c : BurnishCtl) : Nat := if c.gf = 1 then 2304 else 1024

/-- The last cycle in which a command that has been alone completes, counted from its begin cycle (R177). -/
def BurnishCtl.bound (c : BurnishCtl) : Nat := 1200 + max (2 * ((c.groups + 31) / 32)) ((c.groups * c.traffic + 4095) / 4096)

/-- A command that is alone and has come so late that it works as fast as it can: it keeps its bound (R177; log 85). -/
def XCmd.hurries (x : XCmd) (now : Nat) : Bool :=
  x.alone && x.head.began + 600 + x.groups * (BurnishCtl.ofWord x.d).traffic / 4096 < now

/-! ### A cycle of a running update (R169, R176, R190) -/

/-- A free number of a cycle for a running update. -/
def State.burnishFree (s : State) (x : XCmd) (i : Nat) : Nat := Config.freeFor s.free (16 * (4 * x.head.id + i) + 4) / 2

/-- An access to a unit of weights is made in this cycle: its bank group has room (R167), and a free value or haste says so. -/
def State.takesUnit (s : State) (x : XCmd) (i : Nat) (all : Bool) (u : Nat) (g : List Seg) : Bool :=
  s.groupsFree g && (all || bitAt (s.burnishFree x i) u)

/-- Groups whose weights are read ahead of the updates; twice as many at most are updated and not yet written. -/
def burnishWindow : Nat := 512

/-- Some units of weights are read, each at once. -/
def State.readWeights (s : State) (all : Bool) : List Nat → XCmd → State × XCmd
  | [], x => (s, x)
  | u :: us, x =>
    let (lo, n) := x.weightUnit u
    let g := cutSegs x.pinned lo n
    if (FMap.get? x.ahead u).isNone && s.takesUnit x 0 all u g then
      (s.useGroups g).readWeights all us { x with ahead := FMap.insert x.ahead u (s.readSide g 0 n) }
    else s.readWeights all us x

/-- Some units of new weights are written, each at once when it is whole (R168). -/
def State.putWeights (s : State) (all : Bool) : List Nat → XCmd → State × XCmd
  | [], x => (s, x)
  | u :: us, x =>
    let (lo, n) := x.weightUnit u
    let g := cutSegs x.pinned lo n
    let b := FMap.getD x.tail u []
    if b.length = n && s.takesUnit x 3 all u g then
      ((s.writeSide g 0 b).useGroups g).putWeights all us { x with tail := FMap.erase x.tail u }
    else s.putWeights all us x

/-- Some 32-byte units of the state panels are written, each at once (R168). -/
def State.putPanels (s : State) (d : Nat) : Nat → XCmd → State × XCmd
  | 0, x => (s, x)
  | k + 1, x =>
    let g := cutSegs x.dst.segs (384 * x.groups - x.panel.length) 32
    if x.panel.isEmpty || s.waitsFor d x.head.id true g then (s, x)
    else ((s.writeSide g 0 (x.panel.take 32)).noteAccess x.head.id g).putPanels d k { x with panel := x.panel.drop 32 }

/-- The next 64 bytes of the gradient and the state of the group under way. -/
def XCmd.nextPart (x : XCmd) : List Seg :=
  let c := BurnishCtl.ofWord x.d
  let n := x.buf.length
  if n < 64 * c.elem then cutSegs x.src.segs (64 * c.elem * x.groups + n) 64
  else cutSegs x.dst.segs (384 * x.groups + (n - 64 * c.elem)) 64

/-- Groups that are updated and wholly written. -/
def XCmd.groupsDone (x : XCmd) : Nat :=
  min (match x.tail with | e :: _ => (x.weightUnit e.1).1 / 128 | [] => x.groups) (x.groups - (x.panel.length + 383) / 384)

/-- The groups in rising order (R169): the next 64 bytes are read, or the group is updated, so many times. -/
def State.burnishGo (s : State) (d : Nat) (r : RecipeImage) : Nat → XCmd → State × XCmd
  | 0, x => (s, x)
  | k + 1, x =>
    let c := BurnishCtl.ofWord x.d
    let g := x.nextPart
    if x.groups = c.groups then (s, x)
    else if x.buf.length < c.groupBytes then
      if s.waitsFor d x.head.id false g then (s, x)
      else (s.noteAccess x.head.id g).burnishGo d r k { x with buf := x.buf ++ s.readSide g 0 64 }
    else if x.hasWeights && x.groups < x.groupsDone + 2 * burnishWindow && (s.die d).poolFree then
      (s.modDie d Die.poolTake).burnishGo d r k (x.burnishGroup r)
    else (s, x)

/-- A command whose pages are SO accesses one unit at a time, each range in rising order, and reads nothing ahead (08 R197): whole units
are written first, then the next group is read and updated. -/
def State.burnishStrong (s : State) (d : Nat) (r : RecipeImage) (x : XCmd) : State × XCmd :=
  let whole := x.tail.find? fun e => e.2.length == (x.weightUnit e.1).2
  match whole with
  | some e => s.putWeights true [e.1] x
  | none =>
    if !x.panel.isEmpty then s.putPanels d 1 x
    else if x.groups < (BurnishCtl.ofWord x.d).groups && x.buf.length = (BurnishCtl.ofWord x.d).groupBytes && !x.hasWeights then
      s.readWeights true (((x.unitsFrom x.groups 1).filter fun u => (FMap.get? x.ahead u).isNone).take 1) x
    else s.burnishGo d r 1 x

/-- What a running update does in a cycle: 32 burnishers at two cycles a group read and update 32 groups at most. -/
def State.burnishCycle (s : State) (d : Nat) (r : RecipeImage) (all : Bool) (x : XCmd) : State × XCmd :=
  let c := BurnishCtl.ofWord x.d
  if strong (x.reads ++ x.writes) then (if all || bitAt (s.burnishFree x 1) 0 then s.burnishStrong d r x else (s, x))
  else
    let most := 32 * (c.groupBytes / 64 + 1)
    let parts := 12 * 2 * burnishWindow
    let ahead := if x.groups < c.groups then x.unitsFrom x.groups (min burnishWindow (c.groups - x.groups)) else []
    let (s, x) := s.readWeights all ahead x
    let (s, x) := s.burnishGo d r (if all then most else s.burnishFree x 1 % (most + 1)) x
    let (s, x) := s.putWeights all (x.tail.map (·.1)) x
    s.putPanels d (if all then parts else s.burnishFree x 2 % (parts + 1)) x

/-- Stripes that are updated and written: engine steps 2 on (Table 7.3). -/
def XCmd.stripesDone (x : XCmd) : Nat :=
  let c := BurnishCtl.ofWord x.d
  if x.groupsDone = c.groups then c.stripes else x.groupsDone / 512

/-- A cycle of a running update (R169, R176). How much it does is free, but one that is alone keeps its bound (R177). -/
def State.burnishStep (s : State) (t : Nat) (x : XCmd) : State :=
  match RecipeImage.parse x.image with
  | none => s
  | some r =>
    if (BurnishCtl.ofWord x.d).mode != 0 || x.head.st != .running then s
    else
      let (s, y) := s.burnishCycle (dieOf t) r (x.hurries (s.tickOf t)) x
      s.modTile t fun z => z.setX { y with head := { y.head with steps := 1 + y.stripesDone } }

/-! ### Issue (R174, R175) -/

/-- A burnish-operand trap. -/
def burnishBad (c : Bool) (v : Word) : List Check := failIf c (trapCheck cBurnishOperand v)

/-- Check 2 of R175. -/
def burnishCtlBad (d : Word) : Bool :=
  let c := BurnishCtl.ofWord d
  1 < c.mode || 1 < c.gf || bits d.toNat 31 25 != 0 || (c.mode == 1 && (c.gf != 0 || c.groups != 1 || c.gofs != 0))

/-- The offset of a range that lies wholly in local HBM (R175 check 6). -/
def State.localHbm (s : State) (a : Word) (len : Nat) : Option Nat :=
  match (GAddr.ofWord a).map (GAddr.local s) with
  | some (.hbm off) => if off + len ≤ hbmLimit then some off else none
  | _ => none

/-- A layout that BURNISH may update (R175 check 4). -/
def State.burnishLayout (s : State) (a : Word) : Option (Nat × Layout) :=
  (s.cur.layoutOf a).filter fun y => layoutLoads s y.2 && y.2.canWrite

/-- A permission refusal of BURNISH's pages is a burnish-operand trap (R175). -/
def burnishRefusal (k : Check) : Check :=
  match k.kind with
  | .trap .precise cause addr _ => if cause = cPermission then trapCheck cBurnishOperand addr else k
  | _ => k

/-- The plan of a BURNISH in mode 0. Check 5 records d, check 6 records G before S, and S for ranges that overlap (log 79); pages of the
layout under a key slot that is not usable trap before G and S are translated (12 R332; log 89). -/
def burnishPlan (s : State) (f : XSlot) : Plan :=
  let a := s.plainOp f.sa
  let b := s.plainOp f.sb
  let c := s.plainOp f.sc
  let d := s.plainOp f.sd
  let w := BurnishCtl.ofWord d.val
  let glen := 64 * w.elem * w.groups
  let slen := 384 * w.groups
  let y := s.burnishLayout a.val
  let g := s.localHbm b.val glen
  let p := s.localHbm c.val slen
  let weights := match y with | some e => cutSegs e.2.segs (128 * w.gofs) (128 * w.groups) | none => []
  let meets := match g, p with | some i, some j => overlaps i glen j slen | _, _ => false
  let before := firstOf (poisonAll [a, b, c, d] ++ [burnishBad (burnishCtlBad d.val) d.val, burnishBad y.isNone a.val,
    burnishBad (match y with | some e => e.2.len < 128 * (w.gofs + w.groups) | none => true) d.val,
    burnishBad (b.val.toNat % 64 != 0 || g.isNone) b.val, burnishBad (c.val.toNat % 64 != 0 || p.isNone) c.val, burnishBad meets c.val,
    s.keysBad weights])
  match before with
  | k :: _ => { checks := [k] }
  | [] =>
    let ranges := [(b.val, glen, false), (c.val, slen, true)]
    let lay := s.layoutOver s.cur ranges
    let src := s.findGlobal b.val glen false lay b.val
    let dst := s.findGlobal c.val slen true lay b.val
    let x := { mkX s f .burnish with
      src := src.side, dst := dst.side, pinned := weights, reads := src.side.segs ++ dst.side.segs ++ weights
      writes := weights ++ dst.side.segs, idents := src.idents ++ dst.idents
      layouts := (match y with | some e => [e.1] | none => []) ++ src.layout ++ dst.layout }
    { checks := firstOf ([src.before ++ src.after, dst.before ++ dst.after].map (·.map burnishRefusal)
        ++ [manyBad (src.idents ++ dst.idents) b.val] ++ endChecks s f)
      nonRep := true
      act := fun s => s.acceptX { x with head := s.mkHead 6 f.sy.toNat } }

/-- BURNISH in mode 0 (R174, R175). -/
def execBurnishUpdate (f : XSlot) : State → Host.Outcome State Fault Refusal := issueOp fun s => burnishPlan s f

/-- BURNISH in mode 1 (R174, R175): check 1 covers the tags of a and c, whose values are not read (log 45). -/
def execBurnishRecipeLoad (f : XSlot) : State → Host.Outcome State Fault Refusal :=
  issueOp fun s =>
    let a := s.plainOp f.sa
    let b := s.plainOp f.sb
    let c := s.plainOp f.sc
    let d := s.plainOp f.sd
    let near := localSide s.issue.tile b.val.toNat 64
    { checks := firstOf (poisonAll [a, b, c, d] ++ [burnishBad (burnishCtlBad d.val) d.val,
        burnishBad (b.val.toNat % 64 != 0 || scratchLimit < b.val.toNat + 64) b.val] ++ endChecks s f)
      nonRep := true
      act := fun s => s.acceptX { mkX s f .recipe with src := near, reads := near.segs } }

/-! ### Begin (R176, R177) -/

/-- Step 1 of a BURNISH in mode 0: the image it works with, or the reason of its fault (Tables 7.3 and 7.4). -/
def State.burnishFirst (s : State) (t : Nat) (x : XCmd) : Except Nat (List Byte) :=
  if ((s.ctx t x.head.ctx).layoutOf x.a).isNone then .error 2
  else
    match FMap.get? (s.die (dieOf t)).recipes (BurnishCtl.ofWord x.d).rcp with
    | some e => if e.tenant = x.tenant then .ok e.image else .error 1
    | none => .error 1

/-- Step 1 of a BURNISH in mode 1 reads the image, in the begin cycle or when its bank is free, and checks it (Tables 7.3 and 7.4): one
that is both poisoned and invalid gives reason 4 (log 79). -/
def State.recipeStep (s : State) (t : Nat) (x : XCmd) : State :=
  let banks := segBanks x.src.segs
  let fail := fun (reason : Nat) => s.holdX t x .engine cBurnishState 1 (BitVec.ofNat 64 reason)
  if !x.wantsRecipe then s
  else if ((s.tile t).granteds.contains x.head.id && s.hasBanks banks) || (x.head.since.isNone && s.findsBanks banks) then
    let raw := s.readSide x.src.segs 0 64
    if bytesPoison raw then fail 4
    else if (RecipeImage.parse (raw.map (·.1))).isNone then fail 3
    else (s.takeBanks banks).modTile t fun y => y.setX { x with image := raw.map (·.1), head := { x.head with since := none } }
  else
    s.modTile t fun y => y.setX { x with head := { x.head with delay := x.head.delay + 1, since := some (x.head.since.getD (s.tickOf t)) } }

/-- BURNISH_BEGIN (R177): the first cycle in which its wait, its order and the die's burnishers let it start; step 1 may fault. -/
def execBurnishBegin (s : State) : Host.Outcome State Fault Refusal :=
  let t := s.focus.tile
  match (s.tile t).findX s.focus.id with
  | none => .next s
  | some x =>
    if !x.burnishes then .next s
    else
      let (x, s) := s.tryWaitX t x
      if x.head.clear && s.mayBeginX t x (s.tickOf t) && !s.burnishBlocked t x then
        let x := { x with
          head := { x.head with st := .running, waited := true, began := s.tickOf t, delay := 0, steps := 1, since := none }
          image := [], buf := [], groups := 0, tail := [], panel := [], ahead := [], alone := true }
        if x.op == .recipe then .next ((s.modTile t fun y => y.setX x).soon .engineStep (cmdFocus t x.head.ctx x.head.id))
        else
          match s.burnishFirst t x with
          | .error reason => .next (s.holdX t x .engine cBurnishState 1 (BitVec.ofNat 64 reason))
          | .ok image => .next (s.modTile t fun y => y.setX { x with image := image })
      else .next s

/-! ### Completion (R177, R178) -/

/-- A BURNISH has done its last step and may complete: in mode 1, 4 cycles after it began and no later (R177). -/
def XCmd.burnished (x : XCmd) (now : Nat) : Bool :=
  let c := BurnishCtl.ofWord x.d
  x.head.st == .running &&
    if x.op == .recipe then !x.image.isEmpty && x.head.began + x.head.delay + 4 ≤ now
    else x.op == .burnish && x.groups == c.groups && x.tail.isEmpty && x.panel.isEmpty && x.head.began + 304 + 2 * ((c.groups + 31) / 32) ≤ now

/-- A BURNISH that may complete in a cycle does: a recipe load, and an update that has been alone and whose last cycle this is (R177). -/
def XCmd.burnishDue (x : XCmd) (now : Nat) : Bool :=
  x.op == .recipe || (x.alone && x.head.began + (BurnishCtl.ofWord x.d).bound ≤ now)

/-- The flags BURNISH reports (R178). -/
def burnishFlags (f : Flags) : Flags := f &&& (flNV ||| flSAT ||| flOF ||| flUF ||| flNX)

/-- BURNISH_COMPLETION (R178): a recipe is installed under its tenant; an update reports its flags; the command signals. -/
def execBurnishCompletion (s : State) : Host.Outcome State Fault Refusal :=
  let t := s.focus.tile
  match (s.tile t).findX s.focus.id with
  | none => .next s
  | some x =>
    if !x.burnished (s.tickOf t) then .next s
    else
      let c := BurnishCtl.ofWord x.d
      let s := if x.op == .recipe then
          s.modDie (dieOf t) fun y => { y with recipes := FMap.insert y.recipes c.rcp { tenant := x.tenant, image := x.image } }
        else s
      .next ((s.modTile t fun y => y.dropX x.head.id).completeCmd t x.head (burnishFlags x.head.flags)
        (if x.op == .recipe then 0 else 512 * c.groups) false)

end Sys2Proof.Machine
end

