-- ==== Sys2Proof/Machine/Control.lean ====
section
/-! DEFINITION. The C-slot forms: branches, calls and loops (11 R301 to R305), semaphores (R306, R307), phasers (R310 to R317), FENCE
(08 R210), ALIGN and fixed-time regions (10 R254, R258 to R260), YIELD and HALT (11 R308, R309), and the recovery forms (13 R347 to
R351). -/

namespace Sys2Proof.Machine

/-! ### Branches, calls and loops -/

/-- A branch to a macro PC; one beyond the code store is an illegal-code trap (R302). -/
def branchTo (target : Int) (act : State → State := id) : Plan :=
  if target < 0 || 0x1FFFF < target then { checks := [trapCheck cIllegalCode (BitVec.ofInt 64 target)] }
  else { target := some target.toNat, act := act }

/-- The macro PC of the bundle plus a displacement in halfwords. -/
def State.relative (s : State) (disp : Int) : Int := (s.issue.pc.toNat : Int) + disp

/-- CB + a, modulo 2^64 (R302). -/
def State.indirect (s : State) (a : Word) : Int := ((s.cur.cb.zeroExtend 64 + a).toNat : Int)

/-- A call: the link stack takes the macro PC of the next code word (R303). -/
def callTo (s : State) (target : Int) : Plan :=
  if 16 ≤ s.cur.links.length then { checks := [trapCheck cCallStack 0] }
  else branchTo target fun s => s.modCur fun k => { k with links := s.issue.nextPc :: k.links }

/-- BR (R302). -/
def execBr (f : CJump) : State → Host.Outcome State Fault Refusal :=
  issueOp fun s => branchTo (s.relative f.disp.toInt)

/-- A conditional branch (R302). -/
def branchOn (f : CSlot) (want : Bool) : State → Host.Outcome State Fault Refusal :=
  issueOp fun s => if s.cur.pred f.p.toNat = want then branchTo (s.relative f.imm.toInt) else {}

/-- BRP.t (R302). -/
def execBrpT (f : CSlot) : State → Host.Outcome State Fault Refusal := branchOn f true
/-- BRP.f (R302). -/
def execBrpF (f : CSlot) : State → Host.Outcome State Fault Refusal := branchOn f false

/-- A poisoned branch target traps (R302). -/
def poisonStop (v : SReg) : List Check := failIf v.poison (trapCheck cPoison v.val)

/-- BRI (R302). -/
def execBri (f : CSlot) : State → Host.Outcome State Fault Refusal :=
  issueOp fun s =>
    let a := s.cOp f f.sa
    if a.poison then { checks := poisonStop a } else branchTo (s.indirect a.val)

/-- CALL (R303). -/
def execCall (f : CJump) : State → Host.Outcome State Fault Refusal :=
  issueOp fun s => callTo s (s.relative f.disp.toInt)

/-- CALLI (R302, R303). -/
def execCalli (f : CSlot) : State → Host.Outcome State Fault Refusal :=
  issueOp fun s =>
    let a := s.cOp f f.sa
    if a.poison then { checks := poisonStop a } else callTo s (s.indirect a.val)

/-- RET (R303). -/
def execRet (_ : CSlot) : State → Host.Outcome State Fault Refusal :=
  issueOp fun s =>
    match s.cur.links with
    | [] => { checks := [trapCheck cCallStack 0] }
    | a :: _ => branchTo a fun s => s.modCur fun k => { k with links := k.links.tail }

/-- A loop-state trap names the level. -/
def loopTrap (l : Nat) : Plan := { checks := [trapCheck cLoopState (BitVec.ofNat 64 l)] }

def Ctx.loop (k : Ctx) (l : Nat) : LoopLevel := FMap.getD k.loops l {}
def Ctx.setLoop (k : Ctx) (l : Nat) (v : LoopLevel) : Ctx := { k with loops := FMap.insert k.loops l v }

/-- LOOP (R304). A count of 0 skips the body and leaves the active bit as it was. -/
def execLoop (f : CSlot) : State → Host.Outcome State Fault Refusal :=
  issueOp fun s =>
    let l := f.p.toNat
    let y := s.cur.loop l
    let a := s.plainOp f.sa
    if y.kind != 1 then loopTrap l
    else if f.sa.toNat != 6 && a.poison then { checks := poisonStop a }
    else if f.sa.toNat != 6 && 0xFFFFFFFF < a.val.toNat then loopTrap l
    else
      let c := if f.sa.toNat = 6 then y.count else a.val.toNat
      let act := fun (s : State) => s.modCur fun k =>
        k.setLoop l { k.loop l with n := 0, cnt := BitVec.ofNat 32 c, active := if c = 0 then (k.loop l).active else true }
      if c = 0 then branchTo (s.relative f.imm.toInt) act else { act := act }

/-- LEND (R305): the registers rotate on every execution. -/
def execLend (f : CSlot) : State → Host.Outcome State Fault Refusal :=
  issueOp fun s =>
    let l := f.p.toNat
    let y := s.cur.loop l
    let act := fun (s : State) => s.modCur fun k =>
      let y := k.loop l
      ({ k with rbase := k.rbase - 1 } : Ctx).setLoop l { y with n := y.n + 1, active := y.n + 1 < y.cnt }
    if !y.active then loopTrap l
    else if y.n + 1 < y.cnt then branchTo (s.relative f.imm.toInt) act
    else { act := act }

/-! ### Semaphores -/

/-- What SEMW and SEMS name: the relative index and the amount, exact (R306). -/
def semIndex (f : CSlot) (a : SReg) : Nat := bits f.imm.toNat 7 0 + a.val.toNat
def semAmount (f : CSlot) (b : SReg) : Nat := bits f.imm.toNat 15 8 + b.val.toNat

/-- The checks SEMW and SEMS share (R306, R307). -/
def semChecks (s : State) (f : CSlot) : List (List Check) :=
  let a := s.plainOp f.sa
  let b := s.plainOp f.sb
  [poisonStop a, poisonStop b,
    failIf (s.cur.semcnt.toNat ≤ semIndex f a) (trapCheck cSemRange (BitVec.ofNat 64 (semIndex f a))),
    failIf (0xFFFF < semAmount f b) (trapCheck cSemRange (BitVec.ofNat 64 (semAmount f b)))]

/-- SEMW (R306). -/
def execSemw (f : CSlot) : State → Host.Outcome State Fault Refusal :=
  issueOp fun s =>
    let i := s.cur.semAt (semIndex f (s.plainOp f.sa))
    let n := semAmount f (s.plainOp f.sb)
    let m := s.curTile.sem i
    { checks := firstOf (semChecks s f ++
        [failIf m.err (trapCheck cSemError (BitVec.ofNat 64 (semIndex f (s.plainOp f.sa))) phOther (.clearSemErr i)),
          failIf (m.value.toNat < n) (holdCheck .semaphore 5)])
      nonRep := true
      semLeft := some (i, m.value.toNat - n)
      act := fun s => s.modCurTile fun x => x.setSem i { x.sem i with value := (x.sem i).value - BitVec.ofNat 16 n } }

/-- SEMS (R307). -/
def execSems (f : CSlot) : State → Host.Outcome State Fault Refusal :=
  issueOp fun s =>
    let i := s.cur.semAt (semIndex f (s.plainOp f.sa))
    let n := semAmount f (s.plainOp f.sb)
    { checks := firstOf (semChecks s f ++ [releaseCheck s true, ownCheck s true])
      nonRep := true
      semLeft := some (i, ((s.curTile.sem i).add n).value.toNat)
      act := fun s => s.settleMesh.modCurTile fun x => x.setSem i ((x.sem i).add n) }

/-! ### Phasers -/

/-- The phaser an ID names (R310). -/
def State.phaserOf (s : State) (v : Word) : Option PhaserRef :=
  let n := bits v.toNat 9 0
  match v.toNat / 1024 with
  | 0 => if n < s.cur.phcnt then some { die := dieOf s.issue.tile, num := s.cur.phbase + n } else none
  | 1 => if n < s.cur.hpcnt then some { hub := true, num := s.cur.hpbase + n } else none
  | _ => none

/-- The ID under which a slot's phaser was named (R310). -/
def Ctx.phaserId (k : Ctx) (p : PhaserRef) : Word :=
  BitVec.ofNat 64 (if p.hub then 1024 + (p.num - k.hpbase) else p.num - k.phbase)

def phTrap (v : Word) : Check := trapCheck cPhaser v

/-- Fill slot n with a role on a phaser (R312). -/
def State.register (s : State) (n : Nat) (p : PhaserRef) (role : Role) (binding : Option Nat) (b : Nat) : State :=
  let x := (s.phaser p).getD { launch := s.cur.launch, target := b, pend := b }
  let later := x.got || x.narr != 0
  let e : PhaserSlot :=
    { phaser := p, role := role, arrival := if later then x.ph + 1 else x.ph, waitPh := x.ph, binding := binding }
  let x := if role.signals then { x with nsigNext := x.nsigNext + 1, nsig := if later then x.nsig else x.nsig + 1 } else x
  (s.setPhaser p x).modCur fun k => { k with phslots := FMap.insert k.phslots n e }

/-- PHREG (R312). -/
def phReg (f : CSlot) (role : Role) : State → Host.Outcome State Fault Refusal :=
  issueOp fun s =>
    let k := s.cur
    let a := s.plainOp f.sa
    let b := s.plainOp f.sb
    let n := f.p.toNat % 8
    let ben := bitAt f.imm.toNat 8
    let m := bits f.imm.toNat 7 0
    match s.phaserOf a.val with
    | none => { checks := firstOf [poisonStop a, [phTrap a.val]] }
    | some p =>
      let live := s.phaser p
      let foreign := match live with | some x => x.launch != k.launch | none => false
      { checks := firstOf [poisonStop a, failIf ((FMap.get? k.phslots n).isSome || foreign) (phTrap a.val),
          failIf (ben && k.semcnt.toNat ≤ m) (trapCheck cSemRange (BitVec.ofNat 64 m)),
          if live.isNone then poisonStop b else []]
        nonRep := true
        act := fun s => s.register n p role (if ben then some m else none) b.val.toNat }

/-- PHREG.sig (R312). -/
def execPhregSig (f : CSlot) : State → Host.Outcome State Fault Refusal := phReg f .sig
/-- PHREG.wait (R312). -/
def execPhregWait (f : CSlot) : State → Host.Outcome State Fault Refusal := phReg f .wait
/-- PHREG.sw (R312). -/
def execPhregSw (f : CSlot) : State → Host.Outcome State Fault Refusal := phReg f .sw

/-- Completed phases of a slot's phaser. -/
def State.phaseOf (s : State) (e : PhaserSlot) : Nat := match s.phaser e.phaser with | some x => x.ph | none => 0

/-- PHARR (R313). On an empty slot TRAPADDR holds 0 (log 79). -/
def execPharr (f : CSlot) : State → Host.Outcome State Fault Refusal :=
  issueOp fun s =>
    let n := f.p.toNat % 8
    let b := s.cOp f f.sb
    match FMap.get? s.cur.phslots n with
    | none => { checks := [phTrap 0] }
    | some e =>
      { checks := firstOf [failIf (!e.role.signals) (phTrap (s.cur.phaserId e.phaser)), poisonStop b,
          failIf (s.phaseOf e < e.arrival) (holdCheck .phaser 5), releaseCheck s true, ownCheck s true]
        nonRep := true
        act := fun s => s.settleMesh.arrive s.issue.tile s.issue.ctx n b.val.toNat }

/-- A completion of phase w is seen for certain 4 cycles after it, or 40 for a hub phaser; earlier, it may be (R315; log 3). -/
def State.seesPhase (s : State) (p : PhaserRef) (w : Nat) : Bool :=
  match s.phaser p with
  | none => true
  | some x =>
    let done := (((FMap.get? x.doneAt w).getD []).getD (dieOf s.issue.tile) 0)
    w < x.ph && (done + (if p.hub then 40 else 4) ≤ s.now || s.maybe 0 (4 * s.issue.tile + s.issue.ctx))

/-- PHWAIT (R316). On an empty slot TRAPADDR holds 0 (log 79). -/
def execPhwait (f : CSlot) : State → Host.Outcome State Fault Refusal :=
  issueOp fun s =>
    let n := f.p.toNat % 8
    match FMap.get? s.cur.phslots n with
    | none => { checks := [phTrap 0] }
    | some e =>
      let v := s.cur.phaserId e.phaser
      { checks := firstOf [failIf (!e.role.waits) (phTrap v), failIf (e.role == .sw && e.arrival ≤ e.waitPh) (phTrap v),
          failIf e.overrun (trapCheck cPhaserOverrun v phOther (.clearPhaserOverrun n)),
          failIf (!s.seesPhase e.phaser e.waitPh) (holdCheck .phaser 5)]
        act := fun s => s.modCur fun k => { k with phslots := FMap.insert k.phslots n { e with waitPh := e.waitPh + 1 } } }

/-- PHDROP (R317): its arrival is a release, as PHARR's is. On an empty slot TRAPADDR holds 0 (log 79). -/
def execPhdrop (f : CSlot) : State → Host.Outcome State Fault Refusal :=
  issueOp fun s =>
    let n := f.p.toNat % 8
    match FMap.get? s.cur.phslots n with
    | none => { checks := [phTrap 0] }
    | some e =>
      let due := e.role.signals && e.arrival ≤ s.phaseOf e
      { checks := firstOf [releaseCheck s due, ownCheck s due]
        nonRep := true
        act := fun s => (if due then s.settleMesh else s).dropSlot s.issue.tile s.issue.ctx n }

/-! ### FENCE, YIELD, HALT -/

/-- Every access of a context's earlier bundles is performed, and its M and X commands have completed (08 R210). -/
def State.quiet (s : State) (t c : Nat) : Bool :=
  let x := s.tile t
  !(s.mesh.any fun r => r.tile == t && r.ctx == c) && !(x.mq.any fun m => m.head.ctx == c) && !(x.xq.any fun m => m.head.ctx == c)

/-- FENCE (08 R210): what its own bundle sends over the mesh is performed before a later bundle issues. -/
def execFence (_ : CSlot) : State → Host.Outcome State Fault Refusal :=
  issueOp fun s =>
    { checks := failIf (!s.quiet s.issue.tile s.issue.ctx) (holdCheck .watermark 4)
      act := fun s => if s.issue.sent.isSome then s.modCur fun k => { k with fenceOver := some s.nextId } else s }

/-- YIELD (R308): it has no effect inside a fixed-time region or under a bank lock. -/
def execYield (_ : CSlot) : State → Host.Outcome State Fault Refusal :=
  issueOp fun _ =>
    { act := fun s =>
        if s.pre.inFtr || s.pre.lockLeft.isSome then s
        else s.modCurTile fun x => { x with yielded := true, tookAt := s.now } }

/-- HALT (R309): the context issues nothing more; inside a fixed-time region it traps (10 R259). -/
def execHalt (_ : CSlot) : State → Host.Outcome State Fault Refusal :=
  issueOp fun s =>
    { checks := failIf s.cur.inFtr (trapCheck cIllegalSchedule 0)
      act := fun s =>
        (s.modCurTile fun x => x.endLock s.issue.ctx s.now).modCur fun k => { k with st := .ending, lockLeft := none } }

/-! ### ALIGN and fixed-time regions (10) -/

/-- The die of the bundle in issue is registered: the key die is while it is designated (10 R251). -/
def State.isRegistered (s : State) (d : Nat) : Bool := s.keyDie == some d || (s.die d).registered

/-- How late a mark is: K − (M + S(M)), signed (10 R254). -/
def State.lateness (s : State) (m : Word) : Int :=
  let d := s.die (dieOf s.issue.tile)
  (d.keyTime - (m + BitVec.ofNat 64 (d.stretchAt m))).toInt

/-- ALIGN (10 R254). Under a bank lock its pause is an illegal-schedule trap, judged with all other causes (08 R195, 02 R46). -/
def execAlign (f : CSlot) : State → Host.Outcome State Fault Refusal :=
  issueOp fun s =>
    let a := s.plainOp f.sa
    let b := s.cOp f f.sb
    let late := s.lateness (a.val + b.val)
    let pause : Check := ⟨if s.cur.lockLeft.isSome then phOther else phPause, .pause, .nominal⟩
    { checks := firstOf [poisonStop a, poisonStop b,
        failIf (!s.isRegistered (dieOf s.issue.tile)) (if s.cur.inFtr then breachCheck 10 else pause),
        failIf (late < 0) pause,
        failIf ((s.cur.latemax.toNat : Int) < late) (trapCheck cBreach (breachAddr 9 0 late.toNat) phLate)] }

/-- FTRBEG (10 R258, 17 R386): a die on its way to another step does not run at step N (log 7). -/
def execFtrbeg (_ : CSlot) : State → Host.Outcome State Fault Refusal :=
  issueOp fun s =>
    let lowered := !(s.die (dieOf s.issue.tile)).nominal
    { checks := firstOf [failIf (s.cur.inFtr || s.cur.lockLeft.isSome) (trapCheck cIllegalSchedule 0),
        failIf (!s.cur.absent.isEmpty || lowered) (holdCheck .registerFill 0 0 0 .nominal)]
      act := fun s => s.modCur fun k => { k with inFtr := true, ftrTimer := 0, ftrPorts := [] } }

/-- A pending overrun of a port as a failing check (10 R273). -/
def overrunCheck (s : State) (p : Nat) : List Check :=
  match FMap.get? s.curTile.overruns p with
  | some n => [breachCheck 11 p (min n 0xFFFF) (.clearFifoOverrun p)]
  | none => []

/-- FTREND (10 R258, R260): the ports named in the region, by the F command of its own bundle too. -/
def execFtrend (_ : CSlot) : State → Host.Outcome State Fault Refusal :=
  issueOp fun s =>
    { checks := firstOf (failIf (!s.cur.inFtr || s.cur.lockLeft.isSome) (trapCheck cIllegalSchedule 0)
        :: (List.range 10).map fun p => if (s.cur.ftrPorts ++ s.issue.fabPorts).contains p then overrunCheck s p else [])
      act := fun s => s.modCur fun k => { k with inFtr := false, ftrPorts := [] } }

/-! ### The recovery forms (13) -/

/-- TRAP k (13 R348). -/
def execTrap (f : CSlot) : State → Host.Outcome State Fault Refusal :=
  issueOp fun s => { checks := [trapCheck cTrapInstr (BitVec.ofNat 64 (s.issue.nextPc * 2 ^ 32 + f.imm.toNat))] }

/-- ERET, ERES, PARK and UNPARK are supervisor only (02 R52). -/
def supervisorCheck (s : State) : List Check := failIf (s.issue.lvl == 0#1) (trapCheck cPrivilege 0 phPrivilege)

/-- The record closes: the level returns to the launch's (13 R349). -/
def Ctx.closeRecord (k : Ctx) : Ctx := { k with trapcause := 0, lvl := k.sup, engineFlag := false, heldCmd := 0 }

/-- ERET (13 R349). -/
def execEret (_ : CSlot) : State → Host.Outcome State Fault Refusal :=
  issueOp fun s =>
    let k := s.cur
    let q := branchTo (if k.engineFlag then k.retPoint.toNat else k.trappc.toNat) fun s =>
      let k := s.cur
      (if k.engineFlag then s.discardCmd s.issue.tile k.heldCmd else s).modCur Ctx.closeRecord
    { q with checks := firstOf [supervisorCheck s, failIf (k.trapcause == 0) (trapCheck cIllegalSchedule 0), q.checks] }

/-- ERES (13 R349). -/
def execEres (_ : CSlot) : State → Host.Outcome State Fault Refusal :=
  issueOp fun s =>
    let k := s.cur
    let q := branchTo k.retPoint.toNat fun s => (s.resumeCmd s.issue.tile s.cur.heldCmd).modCur Ctx.closeRecord
    { q with checks := firstOf [supervisorCheck s,
        failIf (k.trapcause == 0 || !k.engineFlag) (trapCheck cIllegalSchedule 0), q.checks] }

/-- The entry of PARK k: the trap registers as they stand, or zeros when no record is open (13 R350). -/
def parkBytes (s : State) (k : Ctx) (code : Nat) : List Byte :=
  let next := s.issue.nextPc % 2 ^ 17
  if k.trapcause = 0 then
    entryBytes 0 (entryFlags s.issue.ctx false false 0) 0 2 k.tenant.toNat s.issue.tile 0 0 next 0 code 0
  else
    entryBytes k.trapcause.toNat (entryFlags s.issue.ctx k.engineFlag false k.trapslot.toNat) k.estep.toNat 2 k.tenant.toNat
      s.issue.tile 0 k.trappc.toNat next k.trapaddr code 0

/-- PARK k (13 R350): it ends a fixed-time region and a bank lock, as a trap does (R345, 11 R295; log 55). -/
def execPark (f : CSlot) : State → Host.Outcome State Fault Refusal :=
  issueOp fun s =>
    { checks := supervisorCheck s
      act := fun s =>
        ((s.park s.issue.tile s.issue.ctx 2 0 (parkBytes s s.pre f.imm.toNat)).modCurTile fun x => x.endLock s.issue.ctx s.now).modCur
          fun k => { k with lockLeft := none, inFtr := false, ftrPorts := [] } }

/-- A context that an UNPARK lets go: its next macro PC (13 R351). -/
def Ctx.unparked (k : Ctx) (act : Nat) (tgt : Nat) : Ctx :=
  { k with
    st := .ready
    ticket := none
    parkHeld := 0
    pc := if act = 2 then BitVec.ofNat 17 tgt else k.pc
    pcOver := if act = 2 then false else k.pcOver }

/-- A discard of the command a saved context's entry holds signals the semaphore its image keeps. -/
def SavedCtx.signal (v : SavedCtx) (y : SyncReg) : SavedCtx :=
  if y.inert then v
  else
    let m := (v.sems.getD y.ssem.toNat {}).add y.inc.toNat
    { v with sems := setAt v.sems y.ssem.toNat { m with err := true } }

/-- UNPARK on a context saved while parked: it becomes restorable, and a held command that is resumed runs on when the context is back
(13 R351; log 54). -/
def State.unparkSaved (s : State) (v : SavedCtx) (act tgt : Nat) : State :=
  let id := v.ctx.parkHeld
  let held := v.ctx.parkedKind ≤ 1 && id != 0
  let x := (s.tile v.tile).xq.find? fun m => m.head.id == id
  let cmd := ((s.tile v.tile).findM id).map (·.head.sync) <|> x.map (·.head.sync)
  let s := if held && act != 1 then
      (s.unpin (dieOf v.tile) ((x.map (·.pinCount)).getD 0)).modTile v.tile fun x => { x.dropM id with xq := x.xq.filter fun y => y.head.id != id }
    else s
  let w := match cmd with | some y => if held && act != 1 then v.signal y else v | none => v
  let w := if held && act = 1 then { w with resume := id } else w
  let w := if act = 3 then { w with ctx := { w.ctx with st := .ending, ticket := none, parkHeld := 0 }, parked := false }
    else { w with ctx := w.ctx.unparked act tgt, parked := false }
  let s := { s with saved := s.saved.map fun u => if u.ctx.ticket = v.ctx.ticket && u.parked then w else u }
  if act = 3 then s.sigError v.ctx.launch else s

/-- The parked context a ticket names (13 R351). -/
def State.findTicket (s : State) (n : Nat) : Option (Nat × Nat) :=
  s.tiles.findSome? fun e => (e.2.ctxs.find? fun k => k.2.st == .parked && k.2.ticket == some n).map fun k => (e.1, k.1)

/-- UNPARK's effect; a ticket that names no parked context does nothing (13 R351). -/
def State.unpark (s : State) (n act tgt : Nat) : State :=
  match s.findTicket n with
  | some (t, c) =>
    let k := s.ctx t c
    if act = 3 then (s.endCtx t c).sigError k.launch
    else
      let s := if 1 < k.parkedKind || k.parkHeld = 0 then s
        else if act = 1 then s.resumeCmd t k.parkHeld else s.discardCmd t k.parkHeld
      s.modCtx t c fun k => k.unparked act tgt
  | none =>
    match s.saved.find? fun v => v.parked && v.ctx.ticket == some n with
    | some v => s.unparkSaved v act tgt
    | none => s

/-- UNPARK with an action (13 R351). -/
def unparkWith (f : CSlot) (act : Nat) : State → Host.Outcome State Fault Refusal :=
  issueOp fun s =>
    let a := s.plainOp f.sa
    let b := s.cOp f f.sb
    let tgt := bits b.val.toNat 48 32
    { checks := firstOf [supervisorCheck s, failIf (a.poison || a.val.toNat / 2 ^ 34 != 0) (trapCheck cControlValue a.val),
        failIf (b.poison || bits b.val.toNat 31 2 != 0 || bits b.val.toNat 63 49 != 0) (trapCheck cControlValue b.val),
        releaseCheck s true, ownCheck s true]
      act := fun s => s.settleMesh.unpark a.val.toNat act tgt }

/-- UNPARK, action RETURN (13 R351). -/
def execUnparkReturn (f : CSlot) : State → Host.Outcome State Fault Refusal := unparkWith f 0
/-- UNPARK, action RESUME (13 R351). -/
def execUnparkResume (f : CSlot) : State → Host.Outcome State Fault Refusal := unparkWith f 1
/-- UNPARK, action REDIRECT (13 R351). -/
def execUnparkRedirect (f : CSlot) : State → Host.Outcome State Fault Refusal := unparkWith f 2
/-- UNPARK, action END (13 R351). -/
def execUnparkEnd (f : CSlot) : State → Host.Outcome State Fault Refusal := unparkWith f 3

end Sys2Proof.Machine
end

