-- ==== Sys2Proof/Machine/Vector.lean ====
section
/-! DEFINITION. The V-slot forms (06): masks and governing bits (R141), lanes and elements, latencies of Table 6.3, arithmetic,
compares, reductions, permutes, conversions, blocks, A64 and RDW in registers. -/

namespace Sys2Proof.Machine

/-! ### Sources -/

/-- Rounding mode and stipple inputs of a V form (R144). -/
structure VEnv where
  mode : RMode
  seed : Word
  step : Word
  maskOn : Bool
  zeroing : Bool
  mask : MaskReg
  deriving DecidableEq, Repr

def vEnv (s : State) (f : VSlot) : VEnv :=
  { mode := RMode.ofCode f.rm.toNat, seed := s.cur.seed, step := s.cur.stepReg, maskOn := f.me == 1#1,
    zeroing := f.mz == 1#1, mask := s.cur.mreg (s.cur.meff f.mkr.toNat) }

/-- The 16-bit draw for a tag and a lane. -/
def VEnv.draw (e : VEnv) (tag lane : Nat) : Nat := stippleDraw e.seed e.step tag lane

/-- The vector register an architectural number names (R134). -/
def State.vsrc (s : State) (n : BitVec 6) : VReg := s.cur.vreg (s.cur.veff n.toNat)
/-- Member i of a group: each is renamed on its own (R136). -/
def State.vmem (s : State) (n : BitVec 6) (i : Nat) : VReg := s.cur.vreg (s.cur.veff (n.toNat + i))
def State.vdst (s : State) (n : BitVec 6) (i : Nat := 0) : Nat := s.cur.veff (n.toNat + i)

/-- A scalar broadcast to a lane of elements of w bits (R140). -/
def broadcast (w : Nat) (x : Word) : Lane :=
  let e := x.toNat % 2 ^ w
  BitVec.ofNat 32 ((List.range (32 / w)).foldl (fun a i => a + e * 2 ^ (w * i)) 0)

/-- Operand B: a register, or the selected scalar in every lane (R140). -/
def State.opB (s : State) (f : VSlot) (w : Nat) : VReg :=
  if f.vs = 1#1 then
    let x := s.vOp f
    List.replicate 64 { val := broadcast w x.val, poison := x.poison }
  else s.vsrc f.vb

/-! ### Destinations (R141) -/

/-- What a destination unit takes: not written, or a value with its poison, and the flags it raises. -/
def govern (e : VEnv) (l : Nat) (val : LaneVal) (fl : Flags) : Option LaneVal × Flags :=
  if e.maskOn && e.mask.poison.getLsbD l then (some { val with poison := true }, 0#6)
  else if !e.maskOn || e.mask.bits.getLsbD l then (some val, flagsUnless val.poison fl)
  else if e.zeroing then (some {}, 0#6)
  else (none, 0#6)

/-- Lanes of a single destination register, and the flags of the units written. -/
def lanesResult (e : VEnv) (lat dst : Nat) (compute : Nat → LaneVal × Flags) : Result :=
  let out := (List.range 64).map fun l => let r := compute l; govern e l r.1 r.2
  { lat := lat, dest := .vector dst (out.map (·.1)), flags := orFlags (out.map (·.2)) }

/-- A plan that lands lanes in one register. -/
def vPlan (s : State) (gs : List GroupUse) (rs : List Result) : Plan := Plan.withGroups s.cur gs { results := rs }

/-- The group of operand B when it is a register (R140). -/
def bGroup (f : VSlot) : List GroupUse := if f.vs = 1#1 then [] else [.vec f.vb.toNat 1]

/-- The groups of a form with single registers VD, VA and operand B. -/
def gsBinary (f : VSlot) : List GroupUse := [.vec f.vd.toNat 1, .vec f.va.toNat 1] ++ bGroup f
def gsUnary (f : VSlot) : List GroupUse := [.vec f.vd.toNat 1, .vec f.va.toNat 1]

/-! ### Elements of a lane -/

/-- Apply an operation to the w-bit elements of lanes a, b and c. The operation sees the element's index (R133). -/
def onElems (w l : Nat) (op : Nat → Nat → Nat → Nat → Nat × Flags) (a b c : Lane) : Lane × Flags :=
  let n := 32 / w
  let el := fun (x : Lane) i => x.toNat / 2 ^ (w * i) % 2 ^ w
  let rs := (List.range n).map fun i => op (n * l + i) (el a i) (el b i) (el c i)
  (BitVec.ofNat 32 ((List.range n).foldl (fun acc i => acc + (rs.getD i (0, 0)).1 % 2 ^ w * 2 ^ (w * i)) 0),
   orFlags (rs.map (·.2)))

/-- A form over elements of w bits of VA, operand B and VC, lane by lane. -/
def vElems (f : VSlot) (lat w : Nat) (useC : Bool) (op : VEnv → (Nat → Nat) → Nat → Nat → Nat → Nat → Nat × Flags) :
    State → Host.Outcome State Fault Refusal :=
  issueOp fun s =>
    let e := vEnv s f
    let va := s.vsrc f.va
    let vb := s.opB f w
    let vc := s.vsrc f.vc
    vPlan s (gsBinary f ++ if useC then [.vec f.vc.toNat 1] else [])
      [lanesResult e lat (s.vdst f.vd) fun l =>
        let a := va.lane l
        let b := vb.lane l
        let c := vc.lane l
        let (x, fl) := onElems w l (fun i p q r => op e (fun t => e.draw t l) i p q r) a.val b.val c.val
        ({ val := x, poison := a.poison || b.poison || (useC && c.poison) }, fl)]

/-- A floating-point form of two operands that rounds by RM (R145). -/
def vFpBinary (F : FpFmt) (w : Nat) (op : FpFmt → RMode → Nat → Nat → Nat → Nat × Flags) (lat : Nat) (f : VSlot) :
    State → Host.Outcome State Fault Refusal :=
  vElems f lat w false fun e draw i a b _ => op F e.mode (draw i) a b

/-- VFMA (R145). -/
def vFma (F : FpFmt) (w : Nat) (f : VSlot) : State → Host.Outcome State Fault Refusal :=
  vElems f 5 w true fun e draw i a b c => F.fma e.mode (draw i) a b c

/-- VMIN and VMAX of a linear format (R146). -/
def vFpMinMax (F : FpFmt) (w : Nat) (isMax : Bool) (f : VSlot) : State → Host.Outcome State Fault Refusal :=
  vElems f 2 w false fun _ _ _ a b _ => F.minMax isMax a b

/-- An integer or logical form of two operands that raises no flag (R148). -/
def vIntBinary (w lat : Nat) (op : Nat → Nat → Nat) (f : VSlot) : State → Host.Outcome State Fault Refusal :=
  vElems f lat w false fun _ _ _ a b _ => (op a b, 0#6)

/-- VADDS and VSUBS: the sum or difference clamped to the type's range; a clamp raises SAT (R148). -/
def vIntSat (w : Nat) (signed sub : Bool) (f : VSlot) : State → Host.Outcome State Fault Refusal :=
  vElems f 3 w false fun _ _ _ a b _ =>
    let x : Int := if signed then signExt a w else a
    let y : Int := if signed then signExt b w else b
    let (z, c) := satRange (if sub then x - y else x + y) (if signed then -(2 ^ (w - 1)) else 0)
      (if signed then 2 ^ (w - 1) - 1 else 2 ^ w - 1)
    (wrap z w, flagIf c flSAT)

/-- A form of one operand, lane by lane. -/
def vUnary (f : VSlot) (lat : Nat) (op : VEnv → Nat → Nat → Nat × Flags) : State → Host.Outcome State Fault Refusal :=
  issueOp fun s =>
    let e := vEnv s f
    let va := s.vsrc f.va
    vPlan s (gsUnary f)
      [lanesResult e lat (s.vdst f.vd) fun l =>
        let a := va.lane l
        let (x, fl) := op e l a.val.toNat
        ({ val := BitVec.ofNat 32 x, poison := a.poison }, fl)]

/-- A function of an FP32 lane rounded by RM (R147). -/
def vTrans (f : VSlot) (lat : Nat) (op : RMode → Nat → Nat → Nat × Flags) : State → Host.Outcome State Fault Refusal :=
  vUnary f lat fun e l a => op e.mode (e.draw l l) a

/-! ### Masks -/

/-- A word from a predicate on bit numbers. -/
def wordOf (p : Nat → Bool) : Word := BitVec.ofNat 64 ((List.range 64).foldl (fun a l => a + bit01 (p l) * 2 ^ l) 0)

/-- VCMP (R149): bit l of the destination for each enabled lane, poisoned as its lane's operands. -/
def vCompare (f : VSlot) (op : Nat → Nat → Bool × Flags) : State → Host.Outcome State Fault Refusal :=
  issueOp fun s =>
    let e := vEnv s f
    let va := s.vsrc f.va
    let vb := s.opB f 32
    let out := (List.range 64).map fun l =>
      let a := va.lane l
      let b := vb.lane l
      let (r, fl) := op a.val.toNat b.val.toNat
      govern e l { val := if r then 1 else 0, poison := a.poison || b.poison } fl
    let unit := fun l => (out.getD l (none, 0#6)).1
    vPlan s ([.vec f.va.toNat 1] ++ bGroup f)
      [{ lat := 2
         dest := .mask (s.cur.meff f.vd.toNat) (wordOf fun l => (unit l).isSome)
           { bits := wordOf fun l => ((unit l).map (·.val)).getD 0 == 1
             poison := wordOf fun l => ((unit l).map (·.poison)).getD false }
         flags := orFlags (out.map (·.2)) }]

/-- MAND, MOR, MXOR, MANDN: whole masks, bit by bit, with the poison of both source bits (R151). -/
def vMaskLogic (f : VSlot) (op : Word → Word → Word) : State → Host.Outcome State Fault Refusal :=
  issueOp fun s =>
    let a := s.cur.mreg (s.cur.meff f.va.toNat)
    let b := s.cur.mreg (s.cur.meff f.vb.toNat)
    .lands 2 (.mask (s.cur.meff f.vd.toNat) (BitVec.allOnes 64) { bits := op a.bits b.bits, poison := a.poison ||| b.poison })

/-! ### Lane reductions (R152) -/

/-- The lanes that take part: unmasked, or governed by a bit that is 1 or poisoned (R141). -/
def VEnv.takesPart (e : VEnv) (l : Nat) : Bool :=
  !e.maskOn || e.mask.bits.getLsbD l || e.mask.poison.getLsbD l

/-- A node of the reduction tree: its value, the flags of the operations below it, and its poison. A poisoned node computes no
flag (R143; log 24). -/
structure RNode where
  val : Nat
  flags : Flags
  poison : Bool
  deriving DecidableEq, Repr

/-- Combine two nodes, of which either may be absent. -/
def RNode.join (op : Nat → Nat → Nat × Flags) : Option RNode → Option RNode → Option RNode
  | some a, some b =>
    let r := op a.val b.val
    let p := a.poison || b.poison
    some ⟨r.1, a.flags ||| b.flags ||| flagsUnless p r.2, p⟩
  | some a, none => some a
  | none, b => b

/-- One level of the reduction tree: node i combines nodes 2i and 2i + 1 of the level below. -/
def treeLevel (op : Nat → Nat → Nat → Nat × Flags) : Nat → List (Option RNode) → List (Option RNode)
  | i, x :: y :: rest => RNode.join (op i) x y :: treeLevel op (i + 1) rest
  | _, rest => rest

/-- The tree of n more levels, from level t up. -/
def treeRoot (op : Nat → Nat → Nat → Nat → Nat × Flags) : Nat → Nat → List (Option RNode) → Option RNode
  | 0, _, xs => xs.getD 0 none
  | n + 1, t, xs => treeRoot op n (t + 1) (treeLevel (op t) 0 xs)

/-- A reduction into a scalar: the lanes that take part with their poison, what an empty set gives, and the result of the
rest. -/
def vReduce (f : VSlot) (empty : Word) (run : VEnv → List (Option RNode) → Word × Flags) :
    State → Host.Outcome State Fault Refusal :=
  issueOp fun s =>
    let e := vEnv s f
    let va := s.vsrc f.va
    let lanes := (List.range 64).map fun l =>
      if e.takesPart l then
        some { val := (va.lane l).val.toNat, flags := 0, poison := (va.lane l).poison || (e.maskOn && e.mask.poison.getLsbD l) }
      else none
    let p := lanes.any fun x => (x.map (·.poison)).getD false
    let r := if lanes.all (·.isNone) then (empty, 0#6) else run e lanes
    vPlan s [.vec f.va.toNat 1] [{ lat := 6, dest := .scalar f.sd.toNat { val := r.1, poison := p }, flags := r.2 }]

/-- An .f32 reduction over the fixed tree, with the tag of R144. -/
def vReduceFp (f : VSlot) (empty : Word) (op : RMode → Nat → Nat → Nat → Nat × Flags) :
    State → Host.Outcome State Fault Refusal :=
  vReduce f empty fun e lanes =>
    match treeRoot (fun t i a b => op e.mode (e.draw (t * 64 + i) 0) a b) 6 1 lanes with
    | some r => (BitVec.ofNat 64 r.val, r.flags)
    | none => (empty, 0#6)

/-- An .i32 reduction: exact over the signed lanes, sign-extended. -/
def vReduceInt (f : VSlot) (empty : Word) (op : Int → Int → Int) : State → Host.Outcome State Fault Refusal :=
  vReduce f empty fun _ lanes =>
    match lanes.filterMap (fun x => x.map fun v => signExt v.val 32) with
    | [] => (empty, 0#6)
    | x :: xs => (BitVec.ofInt 64 (xs.foldl op x), 0#6)

/-! ### Permutes and broadcasts (R153) -/

/-- A form whose destination lane copies a source lane. -/
def vCopyLanes (f : VSlot) (lat : Nat) (gs : List GroupUse) (src : State → Nat → LaneVal) :
    State → Host.Outcome State Fault Refusal :=
  issueOp fun s => vPlan s gs [lanesResult (vEnv s f) lat (s.vdst f.vd) fun l => (src s l, 0#6)]

/-! ### Conversions -/

/-- Two FP32 sources into 16-bit elements: 2l from VA, 2l + 1 from VB (R154, R156). -/
def vNarrow (f : VSlot) (op : RMode → Nat → Num → Nat × Flags) : State → Host.Outcome State Fault Refusal :=
  issueOp fun s =>
    let e := vEnv s f
    let va := s.vsrc f.va
    let vb := s.vsrc f.vb
    vPlan s [.vec f.vd.toNat 1, .vec f.va.toNat 1, .vec f.vb.toNat 1]
      [lanesResult e 4 (s.vdst f.vd) fun l =>
        let (x, fx) := op e.mode (e.draw (2 * l) l) (fp32.decode (va.lane l).val.toNat)
        let (y, fy) := op e.mode (e.draw (2 * l + 1) l) (fp32.decode (vb.lane l).val.toNat)
        ({ val := BitVec.ofNat 32 (x + 65536 * y), poison := (va.lane l).poison || (vb.lane l).poison }, fx ||| fy)]

/-- Element 2l + h of VA into FP32, exactly (R154, R156). -/
def vWiden (f : VSlot) (op : Nat → Num) : State → Host.Outcome State Fault Refusal :=
  vUnary f 4 fun _ _ a => fp32.ofNum .rne 0 (op (a / 65536 ^ (f.imm.toNat % 2) % 65536))

/-- The byte image of a register (R157), with the poison of each byte's lane. -/
def VReg.bytes (v : VReg) : List (Byte × Bool) :=
  v.flatMap fun x => (toBytes 4 x.val.toNat).map fun b => (b, x.poison)

/-- Lanes from a byte image: a lane is poisoned when any of its bytes is (R157, R165). -/
def VReg.ofByteImage (n : Nat) (l : List (Byte × Bool)) : VReg :=
  (List.range n).map fun i =>
    let b := (l.drop (4 * i)).take 4
    { val := BitVec.ofNat 32 (bytesVal b), poison := bytesPoison b }

/-- VBPACK (R158). -/
def vPack (B : BlkFmt) (f : VSlot) : State → Host.Outcome State Fault Refusal :=
  issueOp fun s =>
    let e := vEnv s f
    let va := s.vsrc f.va
    let scm := f.imm.toNat % 4
    let param := if scm = 0 then { val := 0, poison := false : SReg } else s.vOp f
    let block := fun b =>
      let xs := (List.range 16).map fun k => va.lane (16 * b + k)
      let scale := if scm = 0 then none else some (bits param.val.toNat (8 * b + 7) (8 * b))
      let subs := if scm = 2 then
          some ((List.range 4).map fun q => bits param.val.toNat (32 + 8 * b + 2 * q + 1) (32 + 8 * b + 2 * q))
        else none
      let (bytes, fl) := B.encode e.mode (fun k => e.draw (16 * b + k) (16 * b + k)) scale subs
        (xs.map fun x => .lin (fp32.decode x.val.toNat))
      let p := xs.any (·.poison) || param.poison
      (bytes.map fun y => (y, p), flagsUnless p fl)
    let blocks := (List.range 4).map block
    let image := VReg.ofByteImage 64 (blocks.flatMap (·.1))
    vPlan s (gsUnary f)
      [{ lat := 6, dest := .vector (s.vdst f.vd) (image.map some), flags := orFlags (blocks.map (·.2)) }]

/-- VBUNP (R159). -/
def vUnpack (B : BlkFmt) (f : VSlot) : State → Host.Outcome State Fault Refusal :=
  issueOp fun s =>
    let e := vEnv s f
    let image := (s.vsrc f.va).bytes
    vPlan s (gsUnary f)
      [lanesResult e 6 (s.vdst f.vd) fun l =>
        let blk := (image.drop (l / 16 * B.bytes)).take B.bytes
        let (x, fl) := fp32.ofNum e.mode (e.draw l l) ((B.decode (blk.map (·.1)) (l % 16)).toNum B.n)
        ({ val := BitVec.ofNat 32 x, poison := B.elemPoison (blk.map (·.2)) (l % 16) }, fl)]

/-! ### A64 and RDW in registers -/

/-- The first 16-bit signed field of a param, and the second (R160 to R163). -/
def paramLow (p : Word) : Int := signExt p.toNat 16
def paramHigh (p : Word) : Int := signExt (p.toNat / 65536) 16

/-- 64-bit lane l of a pair (Table 6.1). -/
def lane64 (lo hi : VReg) (l : Nat) : Word × Bool :=
  ((hi.lane l).val ++ (lo.lane l).val, (lo.lane l).poison || (hi.lane l).poison)

/-- A pair of destination registers from 64-bit lanes; `written` says which lanes the form writes at all. -/
def pairResults (e : VEnv) (lat d0 d1 : Nat) (written : Nat → Bool) (compute : Nat → Word × Bool × Flags) : List Result :=
  let out := (List.range 64).map fun l =>
    if written l then
      let r := compute l
      let lo := govern e l { val := r.1.truncate 32, poison := r.2.1 } r.2.2
      let hi := govern e l { val := (r.1 >>> 32).truncate 32, poison := r.2.1 } 0#6
      (lo.1, hi.1, lo.2)
    else (none, none, 0#6)
  [{ lat := lat, dest := .vector d0 (out.map (·.1)), flags := orFlags (out.map (·.2.2)) },
   { lat := lat, dest := .vector d1 (out.map (·.2.1)) }]

/-- RDW element e of a triple (Table 6.1), and its poison: any of its six tags. -/
def rdwElem (v0 v1 v2 : VReg) (e : Nat) : Rdw × Bool :=
  let bin := fun (v : VReg) => (v.lane (2 * e + 1)).val ++ (v.lane (2 * e)).val
  let p := fun (v : VReg) => (v.lane (2 * e + 1)).poison || (v.lane (2 * e)).poison
  (⟨bin v0, bin v1, bin v2⟩, p v0 || p v1 || p v2)

/-- A unit is disabled by its governing bit: masked off and not poisoned (R141). -/
def VEnv.disabled (e : VEnv) (l : Nat) : Bool :=
  e.maskOn && !e.mask.poison.getLsbD l && !e.mask.bits.getLsbD l

/-- The three registers of a triple from 32 RDW elements; element e is governed by mask bit e (R141). -/
def tripleResults (e : VEnv) (lat : Nat) (dst : Nat → Nat) (compute : Nat → Rdw × Bool × Flags) : List Result :=
  let out := (List.range 32).map fun i =>
    let r := compute i
    ((govern e i { poison := r.2.1 } r.2.2), if e.disabled i then ⟨0, 0, 0⟩ else r.1)
  let member := fun (bin : Rdw → Word) =>
    out.flatMap fun x =>
      match x.1.1 with
      | none => [none, none]
      | some g =>
        [some { val := (bin x.2).truncate 32, poison := g.poison },
         some { val := (bin x.2 >>> 32).truncate 32, poison := g.poison }]
  [{ lat := lat, dest := .vector (dst 0) (member (·.b0)), flags := orFlags (out.map (·.1.2)) },
   { lat := lat, dest := .vector (dst 1) (member (·.b1)) },
   { lat := lat, dest := .vector (dst 2) (member (·.b2)) }]

/-! ### The forms, in the order of the opcode table -/

/-- VADD_F32 (R145). -/
def execVaddF32 (f : VSlot) : State → Host.Outcome State Fault Refusal :=
  vFpBinary fp32 32 FpFmt.add 3 f

/-- VADD_F16 (R145). -/
def execVaddF16 (f : VSlot) : State → Host.Outcome State Fault Refusal :=
  vFpBinary fp16 16 FpFmt.add 3 f

/-- VADD_BF16 (R145). -/
def execVaddBf16 (f : VSlot) : State → Host.Outcome State Fault Refusal :=
  vFpBinary bf16 16 FpFmt.add 3 f

/-- VADD_I32 (R148). -/
def execVaddI32 (f : VSlot) : State → Host.Outcome State Fault Refusal :=
  vIntBinary 32 3 (fun a b => wrap ((a : Int) + b) 32) f

/-- VADD_I16 (R148). -/
def execVaddI16 (f : VSlot) : State → Host.Outcome State Fault Refusal :=
  vIntBinary 16 3 (fun a b => wrap ((a : Int) + b) 16) f

/-- VADD_I8 (R148). -/
def execVaddI8 (f : VSlot) : State → Host.Outcome State Fault Refusal :=
  vIntBinary 8 3 (fun a b => wrap ((a : Int) + b) 8) f

/-- VSUB_F32 (R145). -/
def execVsubF32 (f : VSlot) : State → Host.Outcome State Fault Refusal :=
  vFpBinary fp32 32 FpFmt.sub 3 f

/-- VSUB_F16 (R145). -/
def execVsubF16 (f : VSlot) : State → Host.Outcome State Fault Refusal :=
  vFpBinary fp16 16 FpFmt.sub 3 f

/-- VSUB_BF16 (R145). -/
def execVsubBf16 (f : VSlot) : State → Host.Outcome State Fault Refusal :=
  vFpBinary bf16 16 FpFmt.sub 3 f

/-- VSUB_I32 (R148). -/
def execVsubI32 (f : VSlot) : State → Host.Outcome State Fault Refusal :=
  vIntBinary 32 3 (fun a b => wrap ((a : Int) - b) 32) f

/-- VSUB_I16 (R148). -/
def execVsubI16 (f : VSlot) : State → Host.Outcome State Fault Refusal :=
  vIntBinary 16 3 (fun a b => wrap ((a : Int) - b) 16) f

/-- VSUB_I8 (R148). -/
def execVsubI8 (f : VSlot) : State → Host.Outcome State Fault Refusal :=
  vIntBinary 8 3 (fun a b => wrap ((a : Int) - b) 8) f

/-- VMUL_F32 (R145). -/
def execVmulF32 (f : VSlot) : State → Host.Outcome State Fault Refusal :=
  vFpBinary fp32 32 FpFmt.mul 5 f

/-- VMUL_F16 (R145). -/
def execVmulF16 (f : VSlot) : State → Host.Outcome State Fault Refusal :=
  vFpBinary fp16 16 FpFmt.mul 5 f

/-- VMUL_BF16 (R145). -/
def execVmulBf16 (f : VSlot) : State → Host.Outcome State Fault Refusal :=
  vFpBinary bf16 16 FpFmt.mul 5 f

/-- VMUL_I32 (R148). -/
def execVmulI32 (f : VSlot) : State → Host.Outcome State Fault Refusal :=
  vIntBinary 32 5 (fun a b => a * b) f

/-- VMUL_I16 (R148). -/
def execVmulI16 (f : VSlot) : State → Host.Outcome State Fault Refusal :=
  vIntBinary 16 5 (fun a b => a * b) f

/-- VFMA_F32 (R145). -/
def execVfmaF32 (f : VSlot) : State → Host.Outcome State Fault Refusal :=
  vFma fp32 32 f

/-- VFMA_F16 (R145). -/
def execVfmaF16 (f : VSlot) : State → Host.Outcome State Fault Refusal :=
  vFma fp16 16 f

/-- VFMA_BF16 (R145). -/
def execVfmaBf16 (f : VSlot) : State → Host.Outcome State Fault Refusal :=
  vFma bf16 16 f

/-- VMIN_F32 (R146). -/
def execVminF32 (f : VSlot) : State → Host.Outcome State Fault Refusal :=
  vFpMinMax fp32 32 false f

/-- VMIN_F16 (R146). -/
def execVminF16 (f : VSlot) : State → Host.Outcome State Fault Refusal :=
  vFpMinMax fp16 16 false f

/-- VMIN_BF16 (R146). -/
def execVminBf16 (f : VSlot) : State → Host.Outcome State Fault Refusal :=
  vFpMinMax bf16 16 false f

/-- VMIN_I32 (R148). -/
def execVminI32 (f : VSlot) : State → Host.Outcome State Fault Refusal :=
  vIntBinary 32 2 (fun a b => if (signExt a 32 ≤ signExt b 32) != false then a else b) f

/-- VMAX_F32 (R146). -/
def execVmaxF32 (f : VSlot) : State → Host.Outcome State Fault Refusal :=
  vFpMinMax fp32 32 true f

/-- VMAX_F16 (R146). -/
def execVmaxF16 (f : VSlot) : State → Host.Outcome State Fault Refusal :=
  vFpMinMax fp16 16 true f

/-- VMAX_BF16 (R146). -/
def execVmaxBf16 (f : VSlot) : State → Host.Outcome State Fault Refusal :=
  vFpMinMax bf16 16 true f

/-- VMAX_I32 (R148). -/
def execVmaxI32 (f : VSlot) : State → Host.Outcome State Fault Refusal :=
  vIntBinary 32 2 (fun a b => if (signExt a 32 ≤ signExt b 32) != true then a else b) f

/-- VADDS_I32 (R148). -/
def execVaddsI32 (f : VSlot) : State → Host.Outcome State Fault Refusal :=
  vIntSat 32 true false f

/-- VADDS_I16 (R148). -/
def execVaddsI16 (f : VSlot) : State → Host.Outcome State Fault Refusal :=
  vIntSat 16 true false f

/-- VADDS_I8 (R148). -/
def execVaddsI8 (f : VSlot) : State → Host.Outcome State Fault Refusal :=
  vIntSat 8 true false f

/-- VADDS_N8 (R148). -/
def execVaddsN8 (f : VSlot) : State → Host.Outcome State Fault Refusal :=
  vIntSat 8 false false f

/-- VSUBS_I32 (R148). -/
def execVsubsI32 (f : VSlot) : State → Host.Outcome State Fault Refusal :=
  vIntSat 32 true true f

/-- VSUBS_I16 (R148). -/
def execVsubsI16 (f : VSlot) : State → Host.Outcome State Fault Refusal :=
  vIntSat 16 true true f

/-- VSUBS_I8 (R148). -/
def execVsubsI8 (f : VSlot) : State → Host.Outcome State Fault Refusal :=
  vIntSat 8 true true f

/-- VSUBS_N8 (R148). -/
def execVsubsN8 (f : VSlot) : State → Host.Outcome State Fault Refusal :=
  vIntSat 8 false true f

/-- VMULH_I32 (R148). -/
def execVmulhI32 (f : VSlot) : State → Host.Outcome State Fault Refusal :=
  vIntBinary 32 5 (fun a b => wrap (signExt a 32 * signExt b 32 / 2 ^ 32) 32) f

/-- VMULH_N32 (R148). -/
def execVmulhN32 (f : VSlot) : State → Host.Outcome State Fault Refusal :=
  vIntBinary 32 5 (fun a b => a * b / 2 ^ 32) f

/-- VABS_F32 (R146). -/
def execVabsF32 (f : VSlot) : State → Host.Outcome State Fault Refusal :=
  vUnary f 2 fun _ _ a => fp32.setSign false a

/-- VABS_I32 (R148). -/
def execVabsI32 (f : VSlot) : State → Host.Outcome State Fault Refusal :=
  vUnary f 2 fun _ _ a => ((signExt a 32).natAbs, 0#6)

/-- VNEG_F32 (R146). -/
def execVnegF32 (f : VSlot) : State → Host.Outcome State Fault Refusal :=
  vUnary f 2 fun _ _ a => fp32.setSign true a

/-- VNEG_I32 (R148). -/
def execVnegI32 (f : VSlot) : State → Host.Outcome State Fault Refusal :=
  vUnary f 2 fun _ _ a => (wrap (-(a : Int)) 32, 0#6)

/-- VRCP (R147). -/
def execVrcp (f : VSlot) : State → Host.Outcome State Fault Refusal :=
  vTrans f 8 fpRecip

/-- VRSQ (R147). -/
def execVrsq (f : VSlot) : State → Host.Outcome State Fault Refusal :=
  vTrans f 8 fpRsqrt

/-- VEXP2 (R147). -/
def execVexp2 (f : VSlot) : State → Host.Outcome State Fault Refusal :=
  vTrans f 8 fpExp2

/-- VLOG2 (R147). -/
def execVlog2 (f : VSlot) : State → Host.Outcome State Fault Refusal :=
  vTrans f 8 fpLog2

/-- VSQRT (R147). -/
def execVsqrt (f : VSlot) : State → Host.Outcome State Fault Refusal :=
  vTrans f 12 fpSqrt

/-- VAND (R148). -/
def execVand (f : VSlot) : State → Host.Outcome State Fault Refusal :=
  vIntBinary 32 2 (fun a b => a &&& b) f

/-- VOR (R148). -/
def execVor (f : VSlot) : State → Host.Outcome State Fault Refusal :=
  vIntBinary 32 2 (fun a b => a ||| b) f

/-- VXOR (R148). -/
def execVxor (f : VSlot) : State → Host.Outcome State Fault Refusal :=
  vIntBinary 32 2 (fun a b => a ^^^ b) f

/-- VANDN (R148). -/
def execVandn (f : VSlot) : State → Host.Outcome State Fault Refusal :=
  vIntBinary 32 2 (fun a b => a &&& (2 ^ 32 - 1 - b)) f

/-- VSHL (R148). -/
def execVshl (f : VSlot) : State → Host.Outcome State Fault Refusal :=
  vIntBinary 32 2 (fun a b => a * 2 ^ (b % 32)) f

/-- VSHR (R148). -/
def execVshr (f : VSlot) : State → Host.Outcome State Fault Refusal :=
  vIntBinary 32 2 (fun a b => a / 2 ^ (b % 32)) f

/-- VSAR (R148). -/
def execVsar (f : VSlot) : State → Host.Outcome State Fault Refusal :=
  vIntBinary 32 2 (fun a b => wrap (signExt a 32 / 2 ^ (b % 32)) 32) f

/-- VCLZ (R148). -/
def execVclz (f : VSlot) : State → Host.Outcome State Fault Refusal :=
  vUnary f 2 fun _ _ a => (if a = 0 then 32 else 31 - Nat.log2 a, 0#6)

/-- VPOPC (R148). -/
def execVpopc (f : VSlot) : State → Host.Outcome State Fault Refusal :=
  vUnary f 2 fun _ _ a => ((List.range 32).countP fun i => bitAt a i, 0#6)

/-- VCMP_F32_EQ (R149). -/
def execVcmpF32Eq (f : VSlot) : State → Host.Outcome State Fault Refusal :=
  vCompare f (fp32.compare .eq)

/-- VCMP_F32_NE (R149). -/
def execVcmpF32Ne (f : VSlot) : State → Host.Outcome State Fault Refusal :=
  vCompare f (fp32.compare .ne)

/-- VCMP_F32_LT (R149). -/
def execVcmpF32Lt (f : VSlot) : State → Host.Outcome State Fault Refusal :=
  vCompare f (fp32.compare .lt)

/-- VCMP_F32_LE (R149). -/
def execVcmpF32Le (f : VSlot) : State → Host.Outcome State Fault Refusal :=
  vCompare f (fp32.compare .le)

/-- VCMP_F32_UN (R149). -/
def execVcmpF32Un (f : VSlot) : State → Host.Outcome State Fault Refusal :=
  vCompare f (fp32.compare .un)

/-- VCMP_I32_EQ (R149). -/
def execVcmpI32Eq (f : VSlot) : State → Host.Outcome State Fault Refusal :=
  vCompare f fun a b => (a == b, 0#6)

/-- VCMP_I32_NE (R149). -/
def execVcmpI32Ne (f : VSlot) : State → Host.Outcome State Fault Refusal :=
  vCompare f fun a b => (a != b, 0#6)

/-- VCMP_I32_LT (R149). -/
def execVcmpI32Lt (f : VSlot) : State → Host.Outcome State Fault Refusal :=
  vCompare f fun a b => (signExt a 32 < signExt b 32, 0#6)

/-- VCMP_I32_LE (R149). -/
def execVcmpI32Le (f : VSlot) : State → Host.Outcome State Fault Refusal :=
  vCompare f fun a b => (signExt a 32 ≤ signExt b 32, 0#6)

/-- VCMP_N32_LT (R149). -/
def execVcmpN32Lt (f : VSlot) : State → Host.Outcome State Fault Refusal :=
  vCompare f fun a b => (a < b, 0#6)

/-- VCMP_N32_LE (R149). -/
def execVcmpN32Le (f : VSlot) : State → Host.Outcome State Fault Refusal :=
  vCompare f fun a b => (a ≤ b, 0#6)

/-- VSEL (R150; a poisoned selecting bit poisons its lane, R141). -/
def execVsel (f : VSlot) : State → Host.Outcome State Fault Refusal :=
  issueOp fun s =>
    let va := s.vsrc f.va
    let vb := s.opB f 32
    let mk := s.cur.mreg (s.cur.meff f.mkr.toNat)
    vPlan s (gsBinary f)
      [{ lat := 2
         dest := .vector (s.vdst f.vd) ((List.range 64).map fun l =>
           let x := if mk.bits.getLsbD l then va.lane l else vb.lane l
           some { val := x.val, poison := x.poison || mk.poison.getLsbD l }) }]

/-- MAND (R151). -/
def execMand (f : VSlot) : State → Host.Outcome State Fault Refusal :=
  vMaskLogic f fun a b => a &&& b

/-- MOR (R151). -/
def execMor (f : VSlot) : State → Host.Outcome State Fault Refusal :=
  vMaskLogic f fun a b => a ||| b

/-- MXOR (R151). -/
def execMxor (f : VSlot) : State → Host.Outcome State Fault Refusal :=
  vMaskLogic f fun a b => a ^^^ b

/-- MANDN (R151). -/
def execMandn (f : VSlot) : State → Host.Outcome State Fault Refusal :=
  vMaskLogic f fun a b => a &&& ~~~b

/-- MTOS (R151). -/
def execMtos (f : VSlot) : State → Host.Outcome State Fault Refusal :=
  issueOp fun s =>
    let a := s.cur.mreg (s.cur.meff f.va.toNat)
    .lands 2 (.scalar f.sd.toNat { val := a.bits, poison := a.poison != 0 })

/-- STOM (R151). -/
def execStom (f : VSlot) : State → Host.Outcome State Fault Refusal :=
  issueOp fun s =>
    let a := s.vOp f
    .lands 2 (.mask (s.cur.meff f.vd.toNat) (BitVec.allOnes 64)
      { bits := a.val, poison := if a.poison then BitVec.allOnes 64 else 0 })

/-- VRADD_F32 (R152). -/
def execVraddF32 (f : VSlot) : State → Host.Outcome State Fault Refusal :=
  vReduceFp f 0 fp32.add

/-- VRADD_I32 (R152). -/
def execVraddI32 (f : VSlot) : State → Host.Outcome State Fault Refusal :=
  vReduceInt f 0 (· + ·)

/-- VRMAX_F32 (R152). -/
def execVrmaxF32 (f : VSlot) : State → Host.Outcome State Fault Refusal :=
  vReduceFp f 0x7FC00000 fun _ _ a b => fp32.minMax true a b

/-- VRMAX_I32 (R152). -/
def execVrmaxI32 (f : VSlot) : State → Host.Outcome State Fault Refusal :=
  vReduceInt f 0xFFFFFFFF80000000 max

/-- VRMIN_F32 (R152). -/
def execVrminF32 (f : VSlot) : State → Host.Outcome State Fault Refusal :=
  vReduceFp f 0x7FC00000 fun _ _ a b => fp32.minMax false a b

/-- VRMIN_I32 (R152). -/
def execVrminI32 (f : VSlot) : State → Host.Outcome State Fault Refusal :=
  vReduceInt f 0x7FFFFFFF min

/-- VPERM (R153, R143). -/
def execVperm (f : VSlot) : State → Host.Outcome State Fault Refusal :=
  vCopyLanes f 4 [.vec f.vd.toNat 1, .vec f.va.toNat 1, .vec f.vb.toNat 1] fun s l =>
    let i := (s.vsrc f.vb).lane l
    let x := (s.vsrc f.va).lane (i.val.toNat % 64)
    { x with poison := x.poison || i.poison }

/-- VROT (R153, R143). -/
def execVrot (f : VSlot) : State → Host.Outcome State Fault Refusal :=
  vCopyLanes f 4 (gsUnary f) fun s l =>
    let a := s.vOp f
    let x := (s.vsrc f.va).lane ((l + a.val.toNat % 64) % 64)
    { x with poison := x.poison || a.poison }

/-- VBCAST (R153). -/
def execVbcast (f : VSlot) : State → Host.Outcome State Fault Refusal :=
  vCopyLanes f 4 (gsUnary f) fun s _ => (s.vsrc f.va).lane (f.imm.toNat % 64)

/-- VEXT (R153). -/
def execVext (f : VSlot) : State → Host.Outcome State Fault Refusal :=
  issueOp fun s =>
    let x := (s.vsrc f.va).lane (f.imm.toNat % 64)
    vPlan s [.vec f.va.toNat 1] [{ lat := 4, dest := .scalar f.sd.toNat { val := x.val.zeroExtend 64, poison := x.poison } }]

/-- VINS (R153). -/
def execVins (f : VSlot) : State → Host.Outcome State Fault Refusal :=
  issueOp fun s =>
    let a := s.vOp f
    vPlan s [.vec f.vd.toNat 1]
      [{ lat := 4
         dest := .vector (s.vdst f.vd) ((List.range 64).map fun l =>
           if l = f.imm.toNat % 64 then some { val := a.val.truncate 32, poison := a.poison } else none) }]

/-- VMOV (R153). -/
def execVmov (f : VSlot) : State → Host.Outcome State Fault Refusal :=
  vCopyLanes f 2 (gsUnary f) fun s l => (s.vsrc f.va).lane l

/-- VMOVI (R153). -/
def execVmovi (f : VSlot) : State → Host.Outcome State Fault Refusal :=
  vCopyLanes f 2 [.vec f.vd.toNat 1] fun s _ =>
    let a := s.vOp f
    { val := a.val.truncate 32, poison := a.poison }

/-- VCVT_F16_F32 (R154). -/
def execVcvtF16F32 (f : VSlot) : State → Host.Outcome State Fault Refusal :=
  vNarrow f fp16.ofNum

/-- VCVT_BF16_F32 (R154). -/
def execVcvtBf16F32 (f : VSlot) : State → Host.Outcome State Fault Refusal :=
  vNarrow f bf16.ofNum

/-- VCVT_F32_F16 (R154). -/
def execVcvtF32F16 (f : VSlot) : State → Host.Outcome State Fault Refusal :=
  vWiden f fp16.decode

/-- VCVT_F32_BF16 (R154). -/
def execVcvtF32Bf16 (f : VSlot) : State → Host.Outcome State Fault Refusal :=
  vWiden f bf16.decode

/-- VCVT_I32_F32 (R154, R70). -/
def execVcvtI32F32 (f : VSlot) : State → Host.Outcome State Fault Refusal :=
  vUnary f 4 fun e l a =>
    let (z, fl) := numToInt e.mode (e.draw l l) (-(2 ^ 31)) (2 ^ 31 - 1) (fp32.decode a)
    (wrap z 32, fl)

/-- VCVT_N32_F32 (R154, R70). -/
def execVcvtN32F32 (f : VSlot) : State → Host.Outcome State Fault Refusal :=
  vUnary f 4 fun e l a =>
    let (z, fl) := numToInt e.mode (e.draw l l) 0 (2 ^ 32 - 1) (fp32.decode a)
    (wrap z 32, fl)

/-- VCVT_F32_I32 (R154, R70). -/
def execVcvtF32I32 (f : VSlot) : State → Host.Outcome State Fault Refusal :=
  vUnary f 4 fun e l a => fp32.ofNum e.mode (e.draw l l) (Num.ofInt (signExt a 32) 0)

/-- VCVT_F32_N32 (R154, R70). -/
def execVcvtF32N32 (f : VSlot) : State → Host.Outcome State Fault Refusal :=
  vUnary f 4 fun e l a => fp32.ofNum e.mode (e.draw l l) (Num.ofInt a 0)

/-- VTOLOG_LB8 (R156). -/
def execVtologLb8 (f : VSlot) : State → Host.Outcome State Fault Refusal :=
  vUnary f 4 fun e l a => logWordOfNum lb8.n e.mode (e.draw l l) (fp32.decode a)

/-- VTOLOG_LB6 (R156). -/
def execVtologLb6 (f : VSlot) : State → Host.Outcome State Fault Refusal :=
  vUnary f 4 fun e l a => logWordOfNum lb6.n e.mode (e.draw l l) (fp32.decode a)

/-- VTOLOG_LB4 (R156). -/
def execVtologLb4 (f : VSlot) : State → Host.Outcome State Fault Refusal :=
  vUnary f 4 fun e l a => logWordOfNum lb4.n e.mode (e.draw l l) (fp32.decode a)

/-- VTOLOG_LM16 (R156). -/
def execVtologLm16 (f : VSlot) : State → Host.Outcome State Fault Refusal :=
  vNarrow f lm16OfNum

/-- VFROMLOG_LB8 (R156). -/
def execVfromlogLb8 (f : VSlot) : State → Host.Outcome State Fault Refusal :=
  vUnary f 4 fun e l a => fp32.ofNum e.mode (e.draw l l) ((logWordDecode a).toNum lb8.n)

/-- VFROMLOG_LB6 (R156). -/
def execVfromlogLb6 (f : VSlot) : State → Host.Outcome State Fault Refusal :=
  vUnary f 4 fun e l a => fp32.ofNum e.mode (e.draw l l) ((logWordDecode a).toNum lb6.n)

/-- VFROMLOG_LB4 (R156). -/
def execVfromlogLb4 (f : VSlot) : State → Host.Outcome State Fault Refusal :=
  vUnary f 4 fun e l a => fp32.ofNum e.mode (e.draw l l) ((logWordDecode a).toNum lb4.n)

/-- VFROMLOG_LM16 (R156). -/
def execVfromlogLm16 (f : VSlot) : State → Host.Outcome State Fault Refusal :=
  vWiden f fun x => (lm16Decode x).toNum 256

/-- VBPACK_LB8 (R158). -/
def execVbpackLb8 (f : VSlot) : State → Host.Outcome State Fault Refusal :=
  vPack lb8 f

/-- VBPACK_LB6 (R158). -/
def execVbpackLb6 (f : VSlot) : State → Host.Outcome State Fault Refusal :=
  vPack lb6 f

/-- VBPACK_LB4 (R158). -/
def execVbpackLb4 (f : VSlot) : State → Host.Outcome State Fault Refusal :=
  vPack lb4 f

/-- VBUNP_LB8 (R159). -/
def execVbunpLb8 (f : VSlot) : State → Host.Outcome State Fault Refusal :=
  vUnpack lb8 f

/-- VBUNP_LB6 (R159). -/
def execVbunpLb6 (f : VSlot) : State → Host.Outcome State Fault Refusal :=
  vUnpack lb6 f

/-- VBUNP_LB4 (R159). -/
def execVbunpLb4 (f : VSlot) : State → Host.Outcome State Fault Refusal :=
  vUnpack lb4 f

/-- VTORDW_F32 (R161). -/
def execVtordwF32 (f : VSlot) : State → Host.Outcome State Fault Refusal :=
  issueOp fun s =>
    let e := vEnv s f
    let va := s.vsrc f.va
    let a := s.vOp f
    vPlan s [.vec f.vd.toNat 3, .vec f.va.toNat 1] <|
      tripleResults e 4 (fun i => s.vdst f.vd i) fun i =>
        let x := va.lane (32 * (f.imm.toNat % 2) + i)
        let (r, fl) := Rdw.ofNum (paramLow a.val) false (fp32.decode x.val.toNat)
        (r, x.poison || a.poison, fl)

/-- VTORDW_A64 (R161). -/
def execVtordwA64 (f : VSlot) : State → Host.Outcome State Fault Refusal :=
  issueOp fun s =>
    let e := vEnv s f
    let lo := s.vmem f.va 0
    let hi := s.vmem f.va 1
    let a := s.vOp f
    vPlan s [.vec f.vd.toNat 3, .vec f.va.toNat 2] <|
      tripleResults e 4 (fun i => s.vdst f.vd i) fun i =>
        let (x, p) := lane64 lo hi (32 * (f.imm.toNat % 2) + i)
        let (r, fl) := Rdw.ofNum (paramLow a.val) false (a64ToNum (paramHigh a.val) x.toInt)
        (r, p || a.poison, fl)

/-- VFROMRDW_F32 (R163, R75; log 18). -/
def execVfromrdwF32 (f : VSlot) : State → Host.Outcome State Fault Refusal :=
  issueOp fun s =>
    let e := vEnv s f
    let a := s.vOp f
    let h := 32 * (f.imm.toNat % 2)
    let out := (List.range 64).map fun l =>
      if h ≤ l && l < h + 32 then
        let (x, p) := rdwElem (s.vmem f.va 0) (s.vmem f.va 1) (s.vmem f.va 2) (l - h)
        let (v, fl) := fp32.ofNum e.mode (e.draw l l) (x.toNum (paramLow a.val))
        govern e l { val := BitVec.ofNat 32 v, poison := p || a.poison } (if x = Rdw.nanWord then flNV ||| flSAT else fl)
      else (none, 0#6)
    vPlan s [.vec f.vd.toNat 1, .vec f.va.toNat 3]
      [{ lat := 4, dest := .vector (s.vdst f.vd) (out.map (·.1)), flags := orFlags (out.map (·.2)) }]

/-- VFROMRDW_A64 (R163, R75). -/
def execVfromrdwA64 (f : VSlot) : State → Host.Outcome State Fault Refusal :=
  issueOp fun s =>
    let e := vEnv s f
    let a := s.vOp f
    let h := 32 * (f.imm.toNat % 2)
    vPlan s [.vec f.vd.toNat 2, .vec f.va.toNat 3] <|
      pairResults e 4 (s.vdst f.vd 0) (s.vdst f.vd 1) (fun l => h ≤ l && l < h + 32) fun l =>
        let (x, p) := rdwElem (s.vmem f.va 0) (s.vmem f.va 1) (s.vmem f.va 2) (l - h)
        let (z, _, fl) := a64OfNum e.mode (e.draw l l) (paramHigh a.val) (x.toNum (paramLow a.val))
        (BitVec.ofInt 64 z, p || a.poison, fl)

/-- VADDRDW (R162, R74). -/
def execVaddrdw (f : VSlot) : State → Host.Outcome State Fault Refusal :=
  issueOp fun s =>
    let e := vEnv s f
    vPlan s [.vec f.vd.toNat 3, .vec f.va.toNat 3, .vec f.vb.toNat 3] <|
      tripleResults e 3 (fun i => s.vdst f.vd i) fun i =>
        let (x, p) := rdwElem (s.vmem f.va 0) (s.vmem f.va 1) (s.vmem f.va 2) i
        let (y, q) := rdwElem (s.vmem f.vb 0) (s.vmem f.vb 1) (s.vmem f.vb 2) i
        (x.add y, p || q, 0#6)

/-- VCVTA_F32 (R160). -/
def execVcvtaF32 (f : VSlot) : State → Host.Outcome State Fault Refusal :=
  issueOp fun s =>
    let e := vEnv s f
    let va := s.vsrc f.va
    let a := s.vOp f
    vPlan s [.vec f.vd.toNat 2, .vec f.va.toNat 1] <|
      pairResults e 4 (s.vdst f.vd 0) (s.vdst f.vd 1) (fun _ => true) fun l =>
        let (z, _, fl) := a64OfNum e.mode (e.draw l l) (paramLow a.val) (fp32.decode (va.lane l).val.toNat)
        (BitVec.ofInt 64 z, (va.lane l).poison || a.poison, fl)

/-- VCVTA_A64 (R160). -/
def execVcvtaA64 (f : VSlot) : State → Host.Outcome State Fault Refusal :=
  issueOp fun s =>
    let e := vEnv s f
    let lo := s.vmem f.va 0
    let hi := s.vmem f.va 1
    let a := s.vOp f
    vPlan s [.vec f.vd.toNat 1, .vec f.va.toNat 2]
      [lanesResult e 4 (s.vdst f.vd) fun l =>
        let (x, p) := lane64 lo hi l
        let (r, fl) := fp32.ofNum e.mode (e.draw l l) (a64ToNum (paramLow a.val) x.toInt)
        ({ val := BitVec.ofNat 32 r, poison := p || a.poison }, fl)]

end Sys2Proof.Machine
end

