-- ==== Sys2Proof/Machine/Fabric.lean ====
section
/-! DEFINITION. The fabric unit (10 R263 to R277): ports and links, the F forms, the beats they send and pop, what an issued command
does in each cycle, and its completion. -/

namespace Sys2Proof.Machine

/-! ### Ports (R263) -/

/-- The tile a mesh port of a tile leads to. -/
def meshNeighbour (t p : Nat) : Option Nat :=
  let r := rowOf t
  let c := colOf t
  match p with
  | 0 => if r = 0 then none else some (tileAt (r - 1) c)
  | 1 => if c = 15 then none else some (tileAt r (c + 1))
  | 2 => if r = 11 then none else some (tileAt (r + 1) c)
  | 3 => if c = 0 then none else some (tileAt r (c - 1))
  | _ => none

/-- Cycles between beats on a port (R268). -/
def spacing (p : Nat) : Nat := if p < 4 then 1 else 5

/-- LINKLAT of a torus port of a tile's die (R276). -/
def State.linkLat (s : State) (t p : Nat) : Nat := (FMap.getD (s.die (dieOf t)).linklat (p - 4) 0).toNat

/-- The far package of a torus port belongs to the registration domain (R250). -/
def State.inDomain (s : State) (i : Nat) : Bool :=
  s.loopback.getLsbD i || (s.regPorts.getLsbD i && s.farPorts.getLsbD i && !s.apart.getLsbD i)

/-- A port has a link for timed commands (R263, R267 check 6; Table 10.2; 13 R369). -/
def State.hasLink (s : State) (t p : Nat) : Bool :=
  if p < 4 then
    match meshNeighbour t p with
    | some u =>
      dieOf u == dieOf t || !((s.die (dieOf u)).fenced || ((s.die (dieOf t)).downLinks ++ (s.die (dieOf t)).apartLinks).contains (dieOf u))
    | none => false
  else s.linkLat t p != 0 && s.inDomain (p - 4)

/-! ### Reservations (R266) -/

/-- A slot of the die's torus channel is taken: at most one beat in any 5 consecutive cycles (R264). -/
def State.torusTaken (s : State) (t p cycle : Nat) : Bool :=
  s.tiles.any fun e => dieOf e.1 == dieOf t && e.2.linkRes.any fun r => r.1 == p && r.2 < cycle + 5 && cycle < r.2 + 5

def State.linkTaken (s : State) (t p cycle : Nat) : Bool :=
  if p < 4 then (s.tile t).linkRes.contains (p, cycle) else s.torusTaken t p cycle

/-- A bank a lock in force holds now. -/
def Tile.lockHolds (x : Tile) (b : Nat) : Bool :=
  match x.lock with
  | some l => l.bankA == b || l.bankB == b
  | none => false

/-- The cycles in which a command's beats leave, and the bank and cycle of each scratchpad access (R268, R269, R272). -/
def leaveCycles (op : FOp) (p now n : Nat) : List Nat :=
  match op with
  | .send | .relay => (List.range n).map fun j => now + 1 + j * spacing p
  | _ => []
def bankCycles (op : FOp) (p now a n : Nat) : List (Nat × Nat) :=
  match op with
  | .send => (List.range n).map fun j => (bankOf (a + 64 * j), now + 1 + j * spacing p)
  | .recv => (List.range n).map fun j => (bankOf (a + 64 * j), now + 1 + j)
  | _ => []

/-! ### Issue (R267) -/

/-- The SY wait in cycle 0, against the semaphore as the C slot leaves it (R267 check 7, 11 R299). -/
def fabricWait (s : State) (y : SyncReg) : List Check :=
  let i := s.cur.semAt y.wsem.toNat
  let v := match s.issue.semLeft with
    | some (j, v) => if j = i then v else (s.curTile.sem i).value.toNat
    | none => (s.curTile.sem i).value.toNat
  failIf (y.thr != 0 && v < y.thr.toNat) (holdCheck .semaphore 5)

/-- The input port of a form that pops. -/
def inputPort (op : FOp) (p : Nat) : Nat := match op with | .relay => oppositePort p | _ => p

/-- The pop of n beats (R269, R273): a pending overrun, too few beats, a poisoned beat. -/
def popChecks (s : State) (op : FOp) (p n : Nat) : List (List Check) :=
  match op with
  | .send => []
  | _ =>
    let q := FMap.getD s.curTile.fifos (inputPort op p) []
    [(match FMap.get? s.curTile.overruns (inputPort op p) with
        | some c => [breachCheck 11 p (min c 0xFFFF) (.clearFifoOverrun (inputPort op p))]
        | none => []),
      failIf (q.length < n) (holdCheck .fabricFifo 6 p q.length),
      failIf ((q.take n).any fun b => b.poison.any id) (breachCheck 12 p)]

/-- Link and bank reservations another fabric command or a lock has (R266). -/
def reserveChecks (s : State) (op : FOp) (p a n : Nat) : List Check :=
  failIf ((leaveCycles op p s.now n).any (s.linkTaken s.issue.tile p)
      || (bankCycles op p s.now a n).any fun r => s.curTile.bankRes.contains r || s.curTile.lockHolds r.1)
    (holdCheck .fabricFifo 7 p)

/-- The accumulator regions RECVADD.acc writes (R271). -/
def accRegions (a n : Nat) : List Nat := rangeFrom (a / 16384) ((a + 64 * n - 1) / 16384 - a / 16384 + 1)

/-- The checks of R267 from the link on; before the pops what 08 R202 and R205 have an F command wait for (log 87). -/
def linkChecks (s : State) (f : FSlot) (op : FOp) (a n : Nat) : List (List Check) :=
  let p := f.pt.toNat
  let y := s.cur.syncReg f.sy.toNat
  [failIf (!s.hasLink s.issue.tile p) (breachCheck 13 p), s.cur.syncFails y, fabricWait s y,
    (match op with
      | .addAcc _ => failIf ((accRegions a n).any s.curTile.regionBusy) (holdCheck .matrixBusy 2)
      | _ => []), acquireCheck s, meshCheck s op]
    ++ popChecks s op p n ++ [reserveChecks s op p a n]

/-- An F command is issued (R266, R269, R275): it pops its beats, makes its reservations and takes its wait. -/
def State.acceptF (s : State) (f : FSlot) (op : FOp) (a n : Nat) : State :=
  let p := f.pt.toNat
  let q := inputPort op p
  let pops := match op with | .send => 0 | _ => n
  let x := s.curTile
  let beats := (FMap.getD x.fifos q []).take pops
  let y := s.cur.syncReg f.sy.toNat
  let c : FCmd := { head := s.mkHead 7 f.sy.toNat, op := op, port := p, n := n, a := a, beats := beats }
  let s := s.modCurTile fun x =>
    let x := x.takeWait (x.ctx s.issue.ctx) y
    let x := if pops = 0 then x else { x with fifos := FMap.setD x.fifos q ((FMap.getD x.fifos q []).drop pops) [] }
    { x with
      fq := x.fq ++ [c]
      linkRes := x.linkRes ++ (leaveCycles op p s.now n).map fun i => (p, i)
      bankRes := x.bankRes ++ bankCycles op p s.now a n }
  s.bump.modCur fun k => if s.pre.inFtr then { k with ftrPorts := k.ftrPorts ++ [p, q] } else k

/-- The plan of an F form. -/
def fPlan (s : State) (f : FSlot) (op : FOp) (a n : Nat) (own : List (List Check)) : Plan :=
  { checks := firstOf (own ++ linkChecks s f op a n)
    fabBanks := bankCycles op f.pt.toNat s.now a n
    nonRep := true
    act := fun s => s.settleMesh.acceptF f op a n }

/-- Address checks 2 to 4 of R267. -/
def fAddrChecks (a : SReg) (n limit : Nat) : List (List Check) :=
  [failIf a.poison (trapCheck cPoison a.val), failIf (a.val.toNat % 64 != 0) (trapCheck cAlignment a.val),
    failIf (limit < a.val.toNat + 64 * n) (trapCheck cAddressRange a.val)]

/-- SEND (R268). -/
def execSend (f : FSlot) : State → Host.Outcome State Fault Refusal :=
  issueOp fun s =>
    let a := s.plainOp f.sa
    let n := f.n.toNat + 1
    fPlan s f .send a.val.toNat n (fAddrChecks a n scratchLimit)

/-- RECV (R269). -/
def execRecv (f : FSlot) : State → Host.Outcome State Fault Refusal :=
  issueOp fun s =>
    let a := s.plainOp f.sa
    let n := f.n.toNat + 1
    fPlan s f .recv a.val.toNat n (fAddrChecks a n scratchLimit)

/-- RECVADD.acc (R271). -/
def execRecvaddAcc (f : FSlot) : State → Host.Outcome State Fault Refusal :=
  issueOp fun s =>
    let a := s.plainOp f.sa
    let c := s.plainOp f.sb
    let n := f.n.toNat + 1
    let rdw := c.val.getLsbD 0
    let poison := [failIf a.poison (trapCheck cPoison a.val), failIf c.poison (trapCheck cPoison c.val)]
    fPlan s f (.addAcc rdw) a.val.toNat n
      (poison ++ fAddrChecks a n 0x100000
        ++ [failIf (c.val.toNat / 2 != 0 || (rdw && n % 3 != 0)) (trapCheck cIllegalEncoding c.val)])

/-- RELAY (R272). -/
def execRelay (f : FSlot) : State → Host.Outcome State Fault Refusal :=
  issueOp fun s => fPlan s f .relay 0 (f.n.toNat + 1) []

/-- Beats as bytes with poison. -/
def Beat.cells (b : Beat) : List (Byte × Bool) := b.bytes.zip b.poison

/-- The three registers that twelve beats bring (R270). -/
def beatRegs (beats : List Beat) : List VReg :=
  (List.range 3).map fun k => lanesOf (((beats.drop (4 * k)).take 4).flatMap Beat.cells)

/-- What lands in member k of the triple: RdwAdd of the old triple and the words received (R270). -/
def addRegMember (old got : List VReg) (k : Nat) : List (Option LaneVal) :=
  (List.range 64).map fun l =>
    let e := l / 2
    let o := rdwElem (old.getD 0 []) (old.getD 1 []) (old.getD 2 []) e
    let g := rdwElem (got.getD 0 []) (got.getD 1 []) (got.getD 2 []) e
    let r := o.1.add g.1
    let b := match k with | 0 => r.b0 | 1 => r.b1 | _ => r.b2
    some { val := BitVec.ofNat 32 (b.toNat / 2 ^ (32 * (l % 2))), poison := o.2 }

/-- RECVADD.reg (R270). -/
def execRecvaddReg (f : FSlot) : State → Host.Outcome State Fault Refusal :=
  issueOp fun s =>
    let vt := f.n.toNat
    let k := s.pre
    let regs := (List.range 3).map fun i => k.veff (vt + i)
    let old := regs.map k.vreg
    let got := beatRegs ((FMap.getD s.curTile.fifos f.pt.toNat []).take 12)
    Plan.withGroups k [.vec vt 3]
      { fPlan s f .addReg 0 12 [] with
        results := (List.range 3).map fun i => ⟨8, .vector (regs.getD i 0) (addRegMember old got i), 0⟩ }

/-! ### What an issued command does in each cycle -/

/-- The cycle in which a command acts on beat j, and the cycle it completes in. -/
def FCmd.actAt (f : FCmd) (j : Nat) : Nat :=
  f.head.issued + match f.op with
    | .send | .relay => 1 + j * spacing f.port
    | .recv => 1 + j
    | .addAcc _ => 2 + j
    | .addReg => 8
def FCmd.doneAt (f : FCmd) : Nat :=
  f.head.issued + match f.op with
    | .send | .relay => 1 + (f.n - 1) * spacing f.port
    | .recv => f.n
    | .addAcc _ => f.n + 1
    | .addReg => 8

def Tile.setF (x : Tile) (f : FCmd) : Tile := { x with fq := x.fq.map fun a => if a.head.id = f.head.id then f else a }

/-- A beat leaves on a port (R265): it is present one cycle later on a die's mesh, 13 across a die crossing, and at LINKLAT, give or
take one, on a torus port. Beats for another package leave the machine. -/
def State.leave (s : State) (t : Nat) (f : FCmd) (b : Beat) : State :=
  let now := s.tickOf t
  if f.port < 4 then
    match meshNeighbour t f.port with
    | none => s
    | some u =>
      let due := now + if dieOf u = dieOf t then 1 else 13
      ({ s with air := s.air ++ [{ die := dieOf t, due := due, tile := u, port := oppositePort f.port, beat := b, id := s.nextId }] } : State).bump
  else if s.loopback.getLsbD (f.port - 4) then
    let (n, s) := s.draw
    let due := now + (s.linkLat t f.port - 2) + n % 3
    ({ s with air := s.air ++ [{ die := dieOf t, due := due, tile := t, port := oppositePort f.port, beat := b, id := s.nextId }] } : State).bump
  else s.send { kind := sBeat, dest := f.port, nums := t :: b.poison.map bit01, bytes := b.bytes }

/-- Whole RDWs that the first beats hold. -/
def rdwsIn (beats : Nat) : Nat := 64 * beats / 24

/-- RdwAdd into three entries; SAT bits stay, poison follows 03 R86 (R271). -/
def Tile.addRdw (x : Tile) (e : Nat) (w : Rdw) : Tile :=
  let old := (List.range 3).map fun i => FMap.getD x.acc (e + i) ({} : AccEntry)
  let o := fun i => old.getD i {}
  let r := (⟨(o 0).val, (o 1).val, (o 2).val⟩ : Rdw).add w
  let p := old.any (·.poison)
  let put := fun (x : Tile) i v => { x with acc := FMap.setD x.acc (e + i) { val := v, sat := (o i).sat, poison := p } {} }
  put (put (put x 0 r.b0) 1 r.b1) 2 r.b2

/-- The word at byte 24r of the popped beats. -/
def beatRdw (beats : List Beat) (r : Nat) : Rdw :=
  let b := ((beats.flatMap (·.bytes)).drop (24 * r)).take 24
  ⟨BitVec.ofNat 64 (ofBytes (b.take 8)), BitVec.ofNat 64 (ofBytes ((b.drop 8).take 8)), BitVec.ofNat 64 (ofBytes (b.drop 16))⟩

/-- Beat j of a RECVADD.acc is added (R271): the flags it raises. -/
def Tile.addBeat (x : Tile) (f : FCmd) (rdw : Bool) (j : Nat) : Tile × Flags :=
  let base := f.a / 8
  if rdw then
    ((rangeFrom (rdwsIn j) (rdwsIn (j + 1) - rdwsIn j)).foldl (fun x r => x.addRdw (base + 3 * r) (beatRdw f.beats r)) x, 0#6)
  else
    let b := match f.beats[j]? with | some b => b.bytes | none => []
    (List.range 8).foldl (fun (y : Tile × Flags) i =>
      let e := base + 8 * j + i
      let old := FMap.getD y.1.acc e ({} : AccEntry)
      let (v, c) := sat64 (old.val.toInt + (BitVec.ofNat 64 (ofBytes ((b.drop (8 * i)).take 8)) : Word).toInt)
      ({ y.1 with acc := FMap.setD y.1.acc e { val := BitVec.ofInt 64 v, sat := old.sat || c, poison := old.poison } {} },
        y.2 ||| flagIf c flSAT)) (x, 0#6)

/-- Beat j of a command: sent, written or added. -/
def State.fBeat (s : State) (t : Nat) (f : FCmd) (j : Nat) : State :=
  let next := { f with handled := j + 1, head := { f.head with steps := f.head.steps + 1 } }
  match f.op with
  | .send =>
    let cells := (s.tile t).scratch.read (f.a + 64 * j) 64
    (s.leave t f { bytes := cells.map (·.1), poison := cells.map (·.2) }).modTile t fun x => x.setF next
  | .relay => (match f.beats[j]? with | some b => s.leave t f b | none => s).modTile t fun x => x.setF next
  | .recv =>
    let cells := match f.beats[j]? with | some b => b.cells | none => []
    s.modTile t fun x =>
      ({ x with scratch := x.scratch.write (f.a + 64 * j) cells } : Tile).setF { next with head := { next.head with written := 64 * (j + 1) } }
  | .addAcc rdw =>
    s.modTile t fun x =>
      let (x, fl) := x.addBeat f rdw j
      x.setF { next with head := { next.head with flags := f.head.flags ||| fl, written := 64 * (j + 1) } }
  | .addReg => s.modTile t fun x => x.setF { f with handled := f.n }

/-- A command's beat is due in this cycle. -/
def FCmd.due (f : FCmd) (now : Nat) : Bool := f.handled < f.n && f.actAt f.handled ≤ now

/-- A fabric command's engine step: the beat that is due. -/
def State.fStep (s : State) (t : Nat) (f : FCmd) : State := if f.due (s.tickOf t) then s.fBeat t f f.handled else s

/-- A fabric command is over in this cycle. -/
def FCmd.over (f : FCmd) (now : Nat) : Bool := f.handled == f.n && f.doneAt ≤ now

/-- FABRIC_COMMAND_COMPLETION (R267). -/
def execFabricCommandCompletion (s : State) : Host.Outcome State Fault Refusal :=
  let t := s.focus.tile
  match (s.tile t).fq.find? fun f => f.head.id == s.focus.id with
  | none => .next s
  | some f =>
    if f.over (s.tickOf t) then
      .next ((s.modTile t fun x => { x with fq := x.fq.filter fun a => a.head.id != f.head.id }).completeCmd t f.head f.head.flags
        f.head.written false)
    else .next s

/-! ### Arrival (R265, R273) -/

/-- A beat reaches a FIFO: discarded when the FIFO holds 64, when the tile is in scrub (12 R330), or its die is fenced. -/
def State.arriveBeat (s : State) (t p : Nat) (b : Beat) : State :=
  if (FMap.get? s.scrubs t).isSome || (s.die (dieOf t)).fenced then s
  else
    s.modTile t fun x =>
      let q := FMap.getD x.fifos p []
      if 64 ≤ q.length then { x with overruns := FMap.setD x.overruns p (FMap.getD x.overruns p 0 + 1) 0 }
      else { x with fifos := FMap.insert x.fifos p (q ++ [b]) }

/-- BEAT_ARRIVAL (R265): a beat of the machine's own, by its identity; or one from another package, with its tile, port, bytes and
poison as given, and a last number for its codeword: 0 sound, 1 not to be corrected, so all of it is poisoned, 2 corrected; both errors are
counted (R277, 17 R395). -/
def execBeatArrival (s : State) : Host.Outcome State Fault Refusal :=
  match s.focus.args with
  | [] =>
    match s.air.find? fun f => f.id == s.focus.id with
    | none => .next s
    | some f =>
      if f.due ≤ (s.die f.die).tick then
        .next (({ s with air := s.air.filter fun g => g.id != f.id } : State).arriveBeat f.tile f.port f.beat)
      else .next s
  | p :: rest =>
    if 4 ≤ p && p < 10 && s.focus.tile < 192 then
      let bytes := (List.range 64).map fun i => BitVec.ofNat 8 (rest.getD i 0)
      let fec := rest.getD 128 0
      let lost := fec == 1
      let poison := (List.range 64).map fun i => lost || rest.getD (64 + i) 0 != 0
      let s := if fec = 0 then s else s.countError (dieOf s.focus.tile) 9 lost s.focus.tile
      .next (s.arriveBeat s.focus.tile p { bytes := bytes, poison := poison })
    else .next s

end Sys2Proof.Machine
end

