-- ==== Sys2Proof/Machine/Steps.lean ====
section
/-! DEFINITION. Engine steps (01 R18) of all engines, and walks that complete (12 R325, R326). -/

namespace Sys2Proof.Machine

/-- A step of a running X command. -/
def State.xStep (s : State) (t : Nat) (x : XCmd) : State :=
  if x.head.st != .running then s
  else if x.moves then s.moveStep t x
  else if x.stopped then s
  else
    match x.op with
    | .burnish => s.burnishStep t x
    | .recipe => s.recipeStep t x
    | .layreg => s.layregStep t x
    | _ => s.switchStep t x

/-- ENGINE_STEP (01 R18): the engine that holds the command does its next step. -/
def execEngineStep (s : State) : Host.Outcome State Fault Refusal :=
  let t := s.focus.tile
  let id := s.focus.id
  match (s.tile t).findM id, (s.tile t).findX id, (s.tile t).fq.find? fun f => f.head.id == id with
  | some m, _, _ => .next (s.mStep t m)
  | none, some x, _ => .next (s.xStep t x)
  | none, none, some f => .next (s.fStep t f)
  | none, none, none => .next s

/-- A walk of a context's blocked bundle ends, for every request that has joined it (R325, R326; 16 R380). -/
def State.endWalk (s : State) (t c space off : Nat) : State :=
  let tenant := (s.ctx t c).tenant.toNat
  s.endPage t tenant space off (s.walk tenant space off)

/-- TRANSLATION_WALK_COMPLETE (R325): the walk that the focus names ends. -/
def execTranslationWalkComplete (s : State) : Host.Outcome State Fault Refusal :=
  let t := s.focus.tile
  let c := s.focus.ctx
  let space := s.focus.args.getD 0 0
  let off := s.focus.args.getD 1 0
  if (s.ctx t c).walks.any fun w => w.space == space && w.off == off && w.res.isNone then .next (s.endWalk t c space off) else .next s

end Sys2Proof.Machine
end

