-- ==== Sys2Proof/Machine/Preempt.lean ====
section
/-! DEFINITION. Pre-emption, save and restore (13 R360 to R365). -/

namespace Sys2Proof.Machine

/-! ### Requests (R360) -/

/-- A request must wait: a fixed-time region is open on the tile (10 R262), the context holds a bank lock (08 R195) or is in a far
acquire (09 R235). -/
def Tile.preemptWaits (x : Tile) (c : Nat) : Bool :=
  (x.ctxs.any fun e => e.2.inFtr) || (x.ctx c).lockLeft.isSome || (x.ctx c).farAcq.isSome

/-- A context that can be pre-empted. -/
def Ctx.preemptible (k : Ctx) : Bool :=
  match k.st with
  | .ready | .blocked _ | .paused | .trapping | .parked => true
  | _ => false

/-- PREEMPTION_REQUEST (R360): with its form and effect tick, a request is made; without, the one made takes effect at its tick. -/
def execPreemptionRequest (s : State) : Host.Outcome State Fault Refusal :=
  let t := s.focus.tile
  let c := s.focus.ctx
  let k := s.ctx t c
  if !(s.tile t).live c || !k.preemptible then .next s
  else
    match s.focus.args, k.preempt with
    | [], some p =>
      if !p.live && p.effectTick ≤ s.tickOf t && !(s.tile t).preemptWaits c then
        .next (s.modCtx t c fun k => { k with preempt := some { p with live := true } })
      else .next s
    | u :: tick :: _, none => .next (s.modCtx t c fun k => { k with preempt := some { urgent := u != 0, effectTick := tick } })
    | _, _ => .next s

/-! ### What a pre-empted context waits for -/

/-- A command of a context runs or may run: all but held ones. -/
def State.runsFor (s : State) (t c : Nat) : Bool :=
  let x := s.tile t
  (x.mq.any fun m => m.head.ctx == c && m.head.st != .held) || (x.xq.any fun m => m.head.ctx == c && m.head.st != .held)
    || (x.fq.any fun m => m.head.ctx == c) || s.mesh.any fun r => r.tile == t && r.ctx == c

/-- Nothing of the context is under way any more: results, requests, commands. -/
def State.idleNow (s : State) (t c : Nat) : Bool := (s.ctx t c).inflight.isEmpty && !s.runsFor t c

/-- The next bundle of a context opens a region, and the context has no fault to take first. -/
def State.atRegion (s : State) (t c : Nat) : Bool :=
  s.opensRegion t c && ((s.ctx t c).pendingFaults.isEmpty || (s.ctx t c).trapcause != 0)

/-- Set the request of a context. -/
def State.setPreempt (s : State) (t c : Nat) (p : Preempt) : State := s.modCtx t c fun k => { k with preempt := some p }

/-- LAZY_PREEMPTION (R361): a context Blocked or Paused in a repeatable region is taken off as by an urgent request; one at an RGN
bundle waits for its commands and is saved. -/
def execLazyPreemption (s : State) : Host.Outcome State Fault Refusal :=
  let t := s.focus.tile
  let c := s.focus.ctx
  let k := s.ctx t c
  match k.preempt with
  | none => .next s
  | some p =>
    if !p.live || p.urgent || (s.tile t).preemptWaits c then .next s
    else
      match k.st with
      | .ready | .blocked _ | .paused =>
        if k.st != .ready && !k.nonRepeatable && !p.atRgn then .next ((s.setPreempt t c { p with urgent := true }).soon .urgentPreemption (ctxFocus t c))
        else if !s.atRegion t c then .next (s.setPreempt t c { p with atRgn := false })
        else if s.idleNow t c then .next (s.modCtx t c fun k => { k with st := .saving, literalPaid := false })
        else .next (s.setPreempt t c { p with atRgn := true })
      | _ => .next s

/-! ### Discarding a region (R362, R359, 04 R103, 16 R382) -/

/-- Rows a begun matrix command still does: those of a STREAM that entered before this cycle, those of a DRAIN up to the one it converts;
none of a command that is held, or waits to run again (R103, 16 R382). -/
def MCmd.rowsLeft (m : MCmd) (now : Nat) : Option Nat :=
  let some' := fun (n : Nat) => some (if m.head.st == .running then n else 0)
  match m.op with
  | .stream _ _ => some' (min m.rows (m.off now - 1))
  | .drain _ => some' (if m.readDue now then m.rows + 1 else m.rows)
  | _ => none

/-- A begun matrix command of a discarded region is cut short: a row read that has not entered is dropped. -/
def MCmd.stop (m : MCmd) (now : Nat) : MCmd :=
  match m.rowsLeft now with
  | some r =>
    if r < m.count then
      { m with rowLimit := some r, rows := min m.rows r, pipe := m.pipe.filter fun p => p.i < r, head := { m.head with cut := true } }
    else m
  | none => m

/-- The commands of a discarded region: those not begun are dropped, a STREAM and a DRAIN are cut short (R103, 09 R218). -/
def Tile.discard (x : Tile) (c region now : Nat) : Tile :=
  let mine := fun (h : CmdHead) => h.ctx == c && h.region == region
  let gone := fun (h : CmdHead) => mine h && h.st == .queued && !h.begunOnce
  { x with
    mq := (x.mq.filter fun m => !gone m.head).map fun m => if mine m.head then m.stop now else m
    xq := x.xq.filter fun m => !gone m.head }

/-- Control state goes back to the checkpoint, and nothing else does (R359). -/
def Ctx.rollBack (k : Ctx) : Ctx :=
  { k with
    st := .saving
    pc := k.check.pc
    pcOver := false
    rbase := k.check.rbase
    loops := k.check.loops
    links := k.check.links
    literalPaid := false
    walks := [] }

/-- URGENT_PREEMPTION (R362). -/
def execUrgentPreemption (s : State) : Host.Outcome State Fault Refusal :=
  let t := s.focus.tile
  let c := s.focus.ctx
  let k := s.ctx t c
  match k.preempt with
  | none => .next s
  | some p =>
    if !p.live || !p.urgent then .next s
    else
      match k.st with
      | .ready | .blocked _ | .paused =>
        if p.rolling then (if s.idleNow t c then .next (s.modCtx t c Ctx.rollBack) else .next s)
        else if k.nonRepeatable then .next (s.setPreempt t c { p with urgent := false })
        else .next ((s.modTile t fun x => x.discard c k.regionNo (s.tickOf t)).setPreempt t c { p with rolling := true })
      | _ => .next s

/-! ### The save area (R363, R364) -/

def saveArea (t : Nat) : Nat := 0x5FF0000000 + t * 0x140000
def regionImage (t k : Nat) : Nat := saveArea t + 0x18000 + 0x4980 * k

/-- The entry of a pinned region at a place: 128 columns a row. -/
def Tile.regionEntry (x : Tile) (k n : Nat) : AccEntry := x.readAcc (16 * k + n / 128) (n % 128)

/-- Block b of a pinned region's image (Table 13.5). -/
def Tile.imageBlock (x : Tile) (k b : Nat) : List Byte :=
  if b = 293 then toBytes 2 (FMap.getD x.anchors k 0).toNat ++ [BitVec.ofNat 8 k] ++ List.replicate 61 0
  else
    let es := (List.range 7).map fun j => if 7 * b + j < 2048 then x.regionEntry k (7 * b + j) else {}
    (es.flatMap fun e => toBytes 8 e.val.toNat ++ [BitVec.ofNat 8 (bit01 e.sat)])
      ++ [BitVec.ofNat 8 ((List.range 7).foldl (fun a j => a + bit01 (es.getD j {}).poison * 2 ^ j) 0)]

/-- The image of a pinned region. -/
def Tile.image (x : Tile) (k : Nat) : List Byte := (List.range 294).flatMap (x.imageBlock k)

/-- Block b of an image. -/
def blockOf (image : List (Byte × Bool)) (b : Nat) : List (Byte × Bool) := (image.drop (64 * b)).take 64

/-- The entry that an image gives for a place: poisoned too when bytes of its own, or the anchor's, are (R356; log 90). -/
def imageEntry (image : List (Byte × Bool)) (n : Nat) : AccEntry :=
  let blk := blockOf image (n / 7)
  let j := n % 7
  let own := (blk.drop (9 * j)).take 9
  let marks := (blk.drop 63).take 1
  { val := BitVec.ofNat 64 (bytesVal (own.take 8)), sat := bitAt (bytesVal (own.drop 8)) 0
    poison := bitAt (bytesVal marks) j || bytesPoison (own ++ marks ++ (blockOf image 293).take 2) }

/-- A region refilled from its image, with its anchor. -/
def Tile.refill (x : Tile) (k : Nat) (image : List (Byte × Bool)) : Tile :=
  let x := (List.range 2048).foldl (fun (x : Tile) n => x.writeAcc (16 * k + n / 128) (n % 128) (imageEntry image n)) x
  { x with anchors := FMap.setD x.anchors k (BitVec.ofNat 16 (bytesVal ((blockOf image 293).take 2))) 0 }

/-! ### Save (R363) -/

/-- CKEY of a tenant (12 Table 12.2). -/
def State.ckey (s : State) (tenant : Nat) : Nat := bits ((FMap.getD s.descs tenant []).getD 0 0).toNat 11 2

/-- Everything on a tile that names a context names another. -/
def Tile.rename (x : Tile) (c o : Nat) : Tile :=
  let to' := fun n => if n = c then o else n
  { x with
    claims := x.claims.map fun e => (e.1, to' e.2)
    pins := x.pins.map fun e => (e.1, to' e.2)
    set0 := { x.set0 with owner := to' x.set0.owner }
    set1 := { x.set1 with owner := to' x.set1.owner }
    mq := x.mq.map fun m => { m with head := { m.head with ctx := to' m.head.ctx } }
    xq := x.xq.map fun m => { m with head := { m.head with ctx := to' m.head.ctx } } }

/-- The semaphores of a context's range. -/
def Tile.semRange (x : Tile) (k : Ctx) : List Sem := (rangeFrom k.sembase.toNat k.semcnt.toNat).map x.sem

/-- The pinned regions of a context. -/
def Tile.pinnedBy (x : Tile) (c : Nat) : List Nat := (x.pins.filter fun e => e.2 == c).map (·.1)

/-- A context is saved: its pinned regions are written to its tile's save area, its image is kept, its number and registers are free
(R363, R364). -/
def State.save (s : State) (t c : Nat) : State :=
  let x := s.tile t
  let k := x.ctx c
  let slot := s.ckey k.tenant.toNat
  let pair := s.pairOf slot
  let o := 1000 + s.nextId
  let regs := x.pinnedBy c
  let parked := k.st == .parked
  let v : SavedCtx :=
    { ctx := { k with st := if parked then .parked else .saved, preempt := none, walks := [] }
      num := c, tile := t, back := t, sems := x.semRange k, pins := regs, pair := pair, keySlot := slot, parked := parked, owner := o }
  let s := regs.foldl (fun s r => s.hbmWrite pair (regionImage t r) ((x.image r).map fun b => (b, false))) s
  let s := s.modTile t fun x => { x.rename c o with ctxs := FMap.erase x.ctxs c }
  ({ s.hbmUsed 0 with saved := s.saved ++ [v] } : State).bump

/-- CONTEXT_SAVE (R363): the save of a context that is Saving, or Parked under a request, is complete. -/
def execContextSave (s : State) : Host.Outcome State Fault Refusal :=
  let t := s.focus.tile
  let c := s.focus.ctx
  let k := s.ctx t c
  let asked := match k.preempt with | some p => p.live | none => false
  if (s.tile t).live c && (k.st == .saving || (k.st == .parked && asked && s.idleNow t c)) then .next (s.save t c) else .next s

/-! ### Restore (R365) -/

/-- Context numbers that a tile can give to a context that needs some vector registers (01 R13). -/
def Tile.freeNumbers (x : Tile) (valloc : Nat) : List Nat :=
  if 128 < x.ctxs.foldl (fun a e => a + e.2.valloc.toNat) valloc then [] else [0, 1, 2, 3].filter fun c => !x.live c

/-- Weight sets that a context loaded become invalid (04 R90). -/
def Tile.dropSets (x : Tile) (c : Nat) : Tile :=
  let f := fun (w : WeightSet) => if w.owner = c then { w with valid := false } else w
  { x with set0 := f x.set0, set1 := f x.set1 }

/-- Give a context's semaphores their values back. -/
def Tile.putSems (x : Tile) (base : Nat) (l : List Sem) : Tile :=
  (List.range l.length).foldl (fun x i => x.setSem (base + i) (l.getD i {})) x

/-- A saved context ends as HALT ends it: on its tile, under the name it has there (12 R335, 13 R351). -/
def State.endSaved (s : State) (v : SavedCtx) : State :=
  let ids := v.resume :: v.ctx.parkHeld :: v.ctx.heldCmd :: (v.ctx.pendingFaults.map (·.cmd))
  let s := { s with saved := s.saved.filter fun u => u.owner != v.owner }
  let s := s.setCtx v.back v.owner { v.ctx with st := .ending }
  (ids.foldl (fun s id => s.discardCmd v.back id) s).removeCtx v.back v.owner

/-- A saved context goes back onto its tile under a number (R365); the first absent register fills 4 cycles later (06 R138; log 81). -/
def State.restore (s : State) (v : SavedCtx) (c : Nat) : State :=
  let t := v.back
  let k := { v.ctx with
    st := .ready
    absent := List.range v.ctx.valloc.toNat
    fillAt := s.tickOf t + 4 }
  let images := v.pins.map fun r => (r, s.hbmRead v.pair (regionImage v.tile r) (294 * 64))
  let s := { s.hbmUsed 0 with saved := s.saved.filter fun u => u.owner != v.owner }
  let s := s.modTile t fun x =>
    let x := (x.dropSets v.owner).rename v.owner c
    let x := images.foldl (fun x e => x.refill e.1 e.2) x
    (x.putSems k.sembase.toNat v.sems).setCtx c k
  if v.resume = 0 then s else s.resumeCmd t v.resume

/-- The tile is being compacted: its contexts do not come back to it (11 R291). -/
def State.leaving (s : State) (t : Nat) : Bool := match s.moving with | some (a, _) => a == t | none => false

/-- CONTEXT_RESTORE (R365): the saved context the focus names is restored when it is not parked, a number and vector registers are
free, and its images' key is as it was; an ended one goes, and one whose key is gone ends with an error (12 R335). -/
def execContextRestore (s : State) : Host.Outcome State Fault Refusal :=
  match s.saved.find? fun v => v.owner == s.focus.id with
  | none => .next s
  | some v =>
    let keyed := (FMap.get? s.keys v.keySlot).isSome && s.pairOf v.keySlot == v.pair
    if v.ctx.st == .ending then .next (s.endSaved v)
    else if v.parked || (s.die (dieOf v.back)).fenced || s.leaving v.back then .next s
    else if !keyed then .next ((s.sigError v.ctx.launch).endSaved v)
    else
      let (n, s) := s.draw
      let free := (s.tile v.back).freeNumbers v.ctx.valloc.toNat
      match free[n % max 1 free.length]? with
      | some c => .next (s.restore v c)
      | none => .next s

end Sys2Proof.Machine
end

