-- ==== Sys2Proof/Machine/Launch.lean ====
section
/-! DEFINITION. Launches (11 R278 to R292): records posted, checked and fired; kernel images and loop tables; instances, placement of
members, scrub (12 R329, R330), compaction, the distributor master. -/

namespace Sys2Proof.Machine

/-! ### What the hub translates (12 R322, R337) -/

/-- One translation by the hub's range entries and its own walker. -/
def State.hubLook (s : State) (tenant space off : Nat) : Option Xlate :=
  match lookRange s.hubRanges tenant space off with
  | some (.found x) => some x
  | some _ => none
  | none =>
    match s.walk tenant space off with
    | .leaf e =>
      let x := e.xlate off
      some { x with stop := min x.stop (nextBase s.hubRanges tenant space off 64) }
    | _ => none

/-- The pieces of a range of space 0 or 1 as the hub reaches it for a tenant, when every byte may be read or written. -/
def State.hubPieces (s : State) (tenant space : Nat) (write : Bool) : Nat → Nat → Nat → Option (List Seg)
  | 0, _, left => if left = 0 then some [] else none
  | fuel + 1, off, left =>
    if left = 0 then some []
    else
      match s.hubLook tenant space off with
      | none => none
      | some x =>
        let n := min left (x.stop - off)
        if (write && x.attr.cow) || !bitAt x.attr.perm (if write then 1 else 0) || !s.keyUsable x.attr.key tenant || n = 0 then none
        else
          let p := if space = 0 then (Space.hbm, x.phys) else (Space.wstore (x.phys / 2 ^ 32), x.phys % 2 ^ 32)
          (s.hubPieces tenant space write fuel (off + n) (left - n)).map
            (({ va := space * 2 ^ 60 + off, space := p.1, off := p.2, len := n, ord := x.attr.ord, key := x.attr.key } : Seg) :: ·)

/-- The pieces of a virtual range. A KIMG or an LTAB that names weight store is read as any other range (R281 leaves it open; log 88). -/
def State.hubPlace (s : State) (tenant : Nat) (va : Word) (len : Nat) (write : Bool) : Option (List Seg) :=
  match GAddr.ofWord va with
  | some g =>
    match g with
    | .hbm off => if off + len ≤ hbmLimit then s.hubPieces tenant 0 write (len / 4096 + 2) off len else none
    | .wstore d off => if off + len ≤ wstoreLimit then s.hubPieces tenant 1 write (len / 4096 + 2) (d * 2 ^ 32 + off) len else none
    | _ => none
  | none => none

/-- Bytes the hub reads for a tenant. -/
def State.hubRead (s : State) (tenant : Nat) (va : Word) (len : Nat) : Option (List (Byte × Bool)) :=
  (s.hubPlace tenant va len false).map fun segs => s.readSide segs 0 len

/-! ### Kernel images (R280, Table 11.2) -/

/-- What an image says: its counts, where its parts stand in it, and its data sections as address, place and length. -/
structure KernelImage where
  codeLen : Nat
  dictLen : Nat
  semCnt : Nat
  valloc : Nat
  dictAt : Nat
  dataAt : Nat
  dataLen : Nat
  secs : List (Nat × Nat × Nat)
  deriving DecidableEq, Repr

def up64 (x : Nat) : Nat := (x + 63) / 64 * 64

/-- A little-endian field of an image. -/
def imgField (b : List (Byte × Bool)) (a n : Nat) : Nat := bytesVal ((b.drop a).take n)

/-- The lengths a header gives. -/
def KernelImage.ofHeader (b : List (Byte × Bool)) : KernelImage :=
  let codeLen := imgField b 8 4
  let dictLen := imgField b 12 2
  let dictAt := up64 (896 + 2 * codeLen)
  { codeLen := codeLen, dictLen := dictLen, semCnt := imgField b 14 2, valloc := imgField b 16 1, dictAt := dictAt
    dataAt := up64 (dictAt + 48 * dictLen), dataLen := imgField b 20 4, secs := [] }

/-- A header passes Table 11.2. -/
def headerOk (b : List (Byte × Bool)) : Bool :=
  let k := KernelImage.ofHeader b
  imgField b 0 4 == 0x57444B31 && imgField b 4 2 == 1 && imgField b 6 2 == 0 && imgField b 17 3 == 0 && imgField b 24 40 == 0
    && imgField b 312 8 == 0 && !bytesPoison (b.take 896)
    && 1 ≤ k.codeLen && k.codeLen ≤ 131072 && k.dictLen ≤ 8192 && k.semCnt ≤ 256 && k.valloc % 8 == 0 && 8 ≤ k.valloc && k.valloc ≤ 64
    && ((List.range 16).all fun i => imageValid (BitVec.ofNat 64 (imgField b (64 + 8 * i) 8)))
    && ((List.range 15).all fun i => imgField b (192 + 8 * i) 8 < 2 ^ 40)

/-- The data sections of an area, when each lies within it and within a scratchpad; one that does not makes the image bad (R281 leaves it
open; log 88). -/
def dataSections (b : List (Byte × Bool)) (stop : Nat) : Nat → Nat → Option (List (Nat × Nat × Nat))
  | 0, _ => none
  | fuel + 1, pos =>
    if pos = stop then some []
    else
      let addr := imgField b pos 4
      let len := imgField b (pos + 4) 4
      let next := pos + 8 + (len + 7) / 8 * 8
      if stop < next || scratchLimit < addr + len || bytesPoison ((b.drop pos).take 8) then none
      else (dataSections b stop fuel next).map ((addr, pos + 8, len) :: ·)

/-- An image read for a tenant and checked; `none` is BADIMG, for a KIMG that is not a multiple of 64 too (R281 leaves it open; log 88). -/
def State.readImage (s : State) (tenant : Nat) (va : Word) : Option (KernelImage × List (Byte × Bool)) :=
  if va.toNat % 64 != 0 then none
  else
    match s.hubRead tenant va 896 with
    | none => none
    | some h =>
      if !headerOk h then none
      else
        let k := KernelImage.ofHeader h
        match s.hubRead tenant va (k.dataAt + k.dataLen) with
        | none => none
        | some b => (dataSections b (k.dataAt + k.dataLen) (k.dataLen / 8 + 1) k.dataAt).map fun l => ({ k with secs := l }, b)

/-- The image of a launch, its sections included. -/
def Launch.kernel (x : Launch) : KernelImage :=
  let k := KernelImage.ofHeader x.image
  { k with secs := (dataSections x.image (k.dataAt + k.dataLen) (k.dataLen / 8 + 1) k.dataAt).getD [] }

/-- Code word i and dictionary entry i of an image, each with its poison. -/
def imgWord (b : List (Byte × Bool)) (i : Nat) : Nat × Bool :=
  let c := (b.drop (896 + 2 * i)).take 2
  (bytesVal c, bytesPoison c)
def imgEntry (k : KernelImage) (b : List (Byte × Bool)) (i : Nat) : Nat × Bool :=
  let c := (b.drop (k.dictAt + 48 * i)).take 48
  (bytesVal c, bytesPoison c)

/-- The F slot of a bundle holds a command. -/
def holdsF (w : Nat) : Bool := bits w 351 328 != 0

/-- A literal bundle among code words from one on holds an F command. -/
def literalHasF (b : List (Byte × Bool)) (n : Nat) : Nat → Nat → Bool
  | 0, _ => false
  | fuel + 1, i =>
    if n ≤ i then false
    else if (imgWord b i).1 = 0xFFFF then
      holdsF ((List.range 24).foldl (fun w j => w + (imgWord b (i + 1 + j)).1 * 2 ^ (16 * j)) 0) || literalHasF b n fuel (i + 25)
    else literalHasF b n fuel (i + 1)

/-- The image contains an F-slot command (R291). -/
def Launch.hasF (x : Launch) : Bool :=
  let k := x.kernel
  ((List.range k.dictLen).any fun i => holdsF (imgEntry k x.image i).1) || literalHasF x.image k.codeLen k.codeLen 0

/-! ### Loop tables (R286) -/

/-- A loop level from its entry; a kind is one more than KIND, 0 for an absent level. -/
def LoopLevel.ofWord (w : Nat) : LoopLevel :=
  let count := bits w 31 0
  { kind := if count = 0 then 0 else bits w 33 32 + 1, count := count, step := bits w 63 48, reiss := bitAt w 34 }

/-- An entry of a valid table. -/
def loopEntryOk (w : Nat) : Bool :=
  let y := LoopLevel.ofWord w
  bits w 47 35 == 0 && (y.kind == 0 ||
    (y.kind ≤ 3 && (!y.reiss || y.kind == 3) && (if y.kind == 1 then y.step == 1 else y.step != 0)))

/-- Levels of a kind with their counts, outermost first. -/
def levelsOf (loops : FMap LoopLevel) (kind : Nat) : List (Nat × Nat) :=
  (loops.filter fun e => e.2.kind == kind).map fun e => (e.1, e.2.count)

def product (l : List (Nat × Nat)) : Nat := l.foldl (fun a e => a * e.2) 1

/-- The levels of a loop table, when it is valid (R286). -/
def parseLoops (b : List (Byte × Bool)) : Option (FMap LoopLevel) :=
  let ws := (List.range 6).map fun i => imgField b (8 * i) 8
  let loops := (List.range 6).map fun i => (i + 1, LoopLevel.ofWord (ws.getD i 0))
  if ws.all loopEntryOk && imgField b 48 16 == 0 && !bytesPoison b && product (levelsOf loops 3) ≤ 2 ^ 32 then some loops else none

/-- The gathering fits (R287). -/
def gatheringFits (loops : FMap LoopLevel) (dieMask : Nat) : Bool :=
  let dies := ((List.range 4).filter fun d => bitAt dieMask d).length
  let g := product (levelsOf loops 2)
  g ≤ 48 * dies && ((levelsOf loops 3).isEmpty || g ≤ 48)

/-- Iteration numbers of levels for a mixed-radix number, the outermost most significant (R287, R288). -/
def radix : List (Nat × Nat) → Nat → List (Nat × Nat)
  | [], _ => []
  | (l, c) :: rest, r => (l, r / product rest % c) :: radix rest r

/-! ### Posting, checking, firing (R278 to R283) -/

def State.queue (s : State) (q : Nat) : CommandQueue := FMap.getD s.queues q {}
def State.setQueue (s : State) (q : Nat) (y : CommandQueue) : State := { s with queues := FMap.insert s.queues q y }

/-- LAUNCH_RECORD_POST (R278, 12 R336): the pair, then the 64 bytes of the record; a full queue refuses it. -/
def execLaunchRecordPost (s : State) : Host.Outcome State Fault Refusal :=
  match s.focus.args with
  | [] => .next s
  | qp :: bytes =>
    match FMap.get? s.pairs qp with
    | none => .next s
    | some p =>
      let y := s.queue p.queue
      if p.cls != 1 || bytes.length != 64 || !s.boot.good then .next s
      else if 256 ≤ y.recs.length then .next (s.send { kind := sNak, dest := qp })
      else
        let r := BitVec.ofNat 512 (ofBytes (bytes.map (BitVec.ofNat 8)))
        .next (s.setQueue p.queue { y with recs := y.recs ++ [{ record := r, tenant := p.tenant }] })

/-- A record is BADREC (Table 11.3, 12 R321). -/
def State.badRec (s : State) (q : Nat) (p : Posted) : Bool :=
  let r := Rec.ofBits p.record
  recReserved p.record || r.prio != q / 16 || r.tenant != p.tenant || r.dieMask == 0 || 1024 < r.phbase + r.phcnt
    || 256 < r.hpbase + r.hpcnt || (if r.argEn then r.argA % 8 != 0 || 0x3FFFF0 < r.argA else r.argA != 0)
    || (r.sup && r.tenant != 0) || bits ((FMap.getD s.descs r.tenant []).getD 0 0).toNat 1 0 != 1

/-- A wait in force or SIG names another tenant's semaphore (R281). -/
def State.foreignSem (s : State) (r : Rec) : Bool :=
  (r.w0En && (s.lsem r.w0).tenant != r.tenant) || (r.w1En && (s.lsem r.w1).tenant != r.tenant)
    || (r.sigEn && (s.lsem r.sig).tenant != r.tenant)

/-- Every wait in force is met (R283). -/
def State.waitsMet (s : State) (r : Rec) : Bool :=
  (!r.w0En || r.w0thr ≤ (s.lsem r.w0).count.toNat) && (!r.w1En || r.w1thr ≤ (s.lsem r.w1).count.toNat)

/-- The head of a queue goes, and the next is to be checked. -/
def State.popQueue (s : State) (q : Nat) : State :=
  let y := s.queue q
  s.setQueue q { y with recs := y.recs.tail, checked := false }

/-- The head of a queue is rejected with a code; SIG of the posting tenant is signalled with an error (R281). -/
def State.rejectHead (s : State) (q : Nat) (p : Posted) (code : Nat) : State :=
  let r := Rec.ofBits p.record
  let s := s.popQueue q
  let s := if r.sigEn && (s.lsem r.sig).tenant == p.tenant then s.errLsem r.sig (s.lsem r.sig).bump else s
  s.setStatus q p.tenant code

/-- LAUNCH_HEAD_CHECK (R281): a new head is checked; one that waits is rejected when a wait takes its error bit. -/
def execLaunchHeadCheck (s : State) : Host.Outcome State Fault Refusal :=
  let q := s.focus.id
  let y := s.queue q
  match y.recs with
  | [] => .next s
  | p :: _ =>
    let r := Rec.ofBits p.record
    if !y.checked && s.badRec q p then .next (s.rejectHead q p 1)
    else if !y.checked && s.foreignSem r then .next (s.rejectHead q p 4)
    else if s.waitError r then .next (s.rejectHead q p 4)
    else .next (s.setQueue q { y with checked := true })

/-- A queue's head may fire (R283). -/
def State.fireable (s : State) (q : Nat) : Bool :=
  match (s.queue q).recs with
  | p :: _ => (s.queue q).checked && s.waitsMet (Rec.ofBits p.record) && !s.waitError (Rec.ofBits p.record)
  | [] => false

/-- The queues of a class in round robin from the one after the last fired. -/
def State.classOrder (s : State) (cls : Nat) : List Nat :=
  let last := FMap.getD s.lastQueues cls (16 * cls + 15)
  (List.range 16).map fun i => 16 * cls + (last % 16 + 1 + i) % 16

/-- The queue to fire from (R283). -/
def State.nextFire (s : State) : Option Nat :=
  [7, 6, 5, 4, 3, 2, 1, 0].findSome? fun c => (s.classOrder c).find? s.fireable

/-- The loop table of a firing record: the table at LTAB, or the image's own; `none` is BADIMG, for an LTAB that is not a multiple of 64 too
(R281 leaves it open; log 88). -/
def State.loopTable (s : State) (r : Rec) (image : List (Byte × Bool)) : Option (List (Byte × Bool)) :=
  if r.ltab = 0 then some ((image.drop 832).take 64)
  else if r.ltab % 64 != 0 then none
  else s.hubRead r.tenant (BitVec.ofNat 64 r.ltab) 64

/-- The next range for a die: lost indices first, else CHUNK new ones (R288, R292). -/
def Launch.nextRange (x : Launch) : List Nat × Launch :=
  let chunk := max 1 (Rec.ofBits x.record).chunk
  if !x.again.isEmpty then (x.again.take chunk, { x with again := x.again.drop chunk })
  else
    let n := min chunk (x.indices - x.handed)
    (rangeFrom x.handed n, { x with handed := x.handed + n })

/-- A die is handed its next range. -/
def Launch.handRange (x : Launch) (d : Nat) : Launch :=
  let (l, y) := x.nextRange
  { y with ranges := FMap.insert y.ranges d l }

def Launch.dieMask (x : Launch) : Nat := (Rec.ofBits x.record).dieMask
def Launch.overDies (x : Launch) : Bool := !(levelsOf x.loops 3).isEmpty

/-- With spatial-over-dies levels the master hands each live die of DIEMASK its first range, in rising order (R288). -/
def State.firstRanges (s : State) (x : Launch) : Launch :=
  if x.overDies then ((List.range 4).filter fun d => bitAt x.dieMask d && !(s.die d).fenced).foldl Launch.handRange x else x

/-- Fire the head of a queue (R281, R283): a record whose image or loop table is bad is rejected, and has not fired. -/
def State.fire (s : State) (q : Nat) (p : Posted) : State :=
  let r := Rec.ofBits p.record
  match s.readImage r.tenant (BitVec.ofNat 64 r.kimg) with
  | none => s.rejectHead q p 2
  | some (_, image) =>
    match s.loopTable r image with
    | none => s.rejectHead q p 2
    | some tab =>
      match parseLoops tab with
      | none => s.rejectHead q p 3
      | some loops =>
        if !gatheringFits loops r.dieMask then s.rejectHead q p 3
        else
          let x : Launch :=
            { record := p.record, queue := q, tenant := r.tenant, image := image, loops := loops
              members := product (levelsOf loops 2), indices := product (levelsOf loops 3) }
          let s := s.popQueue q
          ({ s with
            launches := FMap.insert s.launches s.nextId (s.firstRanges x)
            lastQueues := FMap.insert s.lastQueues (q / 16) q
            firedAt := some (s.die 4).tick } : State).bump

/-- LAUNCH_FIRE (R283): at most one record a cycle of the hub; none when the firmware check failed (12 R339). Its image is read from HBM. -/
def execLaunchFire (s : State) : Host.Outcome State Fault Refusal :=
  if s.firedAt = some (s.die 4).tick || !s.boot.good then .next s
  else
    match s.nextFire with
    | none => .next s
    | some q =>
      match (s.queue q).recs with
      | p :: _ => .next ((s.fire q p).hbmUsed 0)
      | [] => .next s

/-! ### Instances (R287, R288) -/

/-- A launch still has members to place or, unless it is aborted, instances to start (R292). -/
def Launch.unplaced (x : Launch) : Bool :=
  (x.insts.any fun e => !e.2.toPlace.isEmpty)
    || (!x.aborted && (x.handed < x.indices || !x.again.isEmpty || x.ranges.any fun r => !r.2.isEmpty))

/-- No launch fired earlier, of the same or a higher class, is still to be placed (R283). -/
def State.inTurn (s : State) (id : Nat) (x : Launch) : Bool :=
  !(s.launches.any fun e => e.1 < id && x.queue / 16 ≤ e.2.queue / 16 && e.2.unplaced)

/-- Every spatial-over-dies level is reissuable (R292). -/
def Launch.reissues (x : Launch) : Bool := x.overDies && x.loops.all fun e => e.2.kind != 3 || e.2.reiss

/-- A die takes its next index; it asks for a new range with the last one of its range, and one that has none takes what is handed out
again after a fence (R288, R292). -/
def Launch.takeIndex (x : Launch) (d : Nat) : Option Nat × Launch :=
  let x := if (FMap.getD x.ranges d []).isEmpty then x.handRange d else x
  match FMap.getD x.ranges d [] with
  | [] => (none, x)
  | i :: rest => (some i, if rest.isEmpty then x.handRange d else { x with ranges := FMap.insert x.ranges d rest })

/-! ### Placement (R284, R290; 12 R329) -/

/-- The contexts that a tile holds, saved ones among them. -/
def State.ctxsOn (s : State) (t : Nat) : List Ctx := ((s.tile t).ctxs.map (·.2)) ++ (s.saved.filter fun v => v.back == t).map (·.ctx)

/-- A start from which `len` units are free of spans, the first from `a` on around the store; `fuel` exceeds twice the spans. -/
def findSpace (spans : List (Nat × Nat)) (len cap : Nat) : Nat → Nat → Option Nat
  | 0, _ => none
  | fuel + 1, a =>
    let a := if cap < a + len then 0 else a
    if cap < a + len then none
    else
      match spans.find? fun p => overlaps a len p.1 p.2 with
      | none => some a
      | some p => findSpace spans len cap fuel (p.1 + p.2)

/-- A free place, which one being free (log 31). -/
def findPlace (spans : List (Nat × Nat)) (len cap start : Nat) : Option Nat :=
  findSpace spans len cap (2 * spans.length + 3) (start % (cap - len + 1))

/-- Where a member would go on a tile: context number, SEMBASE, code base, DICTBASE. -/
structure Fit where
  num : Nat
  sembase : Nat
  cb : Nat
  db : Nat
  deriving DecidableEq, Repr

/-- A tile that takes part in placement of a launch at all. -/
def State.openTile (s : State) (x : Launch) (i : Inst) (t : Nat) : Bool :=
  let d := dieOf t
  bitAt x.dieMask d && !(s.die d).fenced && (match i.die with | some e => e == d | none => true)
    && (FMap.get? s.scrubs t).isNone && (match s.moving with | some m => m.1 != t && m.2 != t | none => true)

/-- A member fits on a tile of its tenant as it stands (R290). -/
def State.fit (s : State) (x : Launch) (t n : Nat) : Option Fit :=
  let y := s.tile t
  let k := x.kernel
  let on := s.ctxsOn t
  let twin := on.find? fun c => match s.launch c.launch with | some z => (Rec.ofBits z.record).kimg == (Rec.ofBits x.record).kimg && z.image == x.image | none => false
  let cb := match twin with | some c => some c.cb.toNat | none => findPlace (on.map fun c => (c.cb.toNat, c.codeLen)) k.codeLen 131072 (n / 4)
  let db := match twin with | some c => some c.dictbase.toNat | none => findPlace (on.map fun c => (c.dictbase.toNat, c.dictCap)) k.dictLen 8192 (n / 4)
  let nums := y.freeNumbers k.valloc
  match nums[n % 4 % max 1 nums.length]?, findPlace (on.map fun c => (c.sembase.toNat, c.semcnt.toNat)) k.semCnt 256 (n / 4), cb, db with
  | some c, some b, some p, some q => if y.owner = some x.tenant then some { num := c, sembase := b, cb := p, db := q } else none
  | _, _, _, _ => none

/-- An access that resolved to a tile has not finished (R291; 12 R330). -/
def State.reached (s : State) (t : Nat) : Bool :=
  let at' := fun (g : Seg) => match g.space with | .scratch u | .acc u | .om u => u == t | _ => false
  (s.tiles.any fun e => e.2.xq.any fun c => (c.reads ++ c.writes).any at') || (s.mesh.any fun r => r.target == t || r.tile == t)
    || s.inbound.any fun r => r.segs.any at'

/-- Nothing of a tile's own is under way, and nothing reaches it. -/
def State.tileQuiet (s : State) (t : Nat) : Bool :=
  let y := s.tile t
  y.ctxs.isEmpty && y.mq.isEmpty && y.xq.isEmpty && y.fq.isEmpty && !s.reached t

/-- A tile that can be scrubbed for another tenant (12 R330). -/
def State.scrubbable (s : State) (t : Nat) : Bool := s.tileQuiet t && !(s.saved.any fun v => v.back == t)

/-- The tiles a member of an instance can go to: those where it fits, and those that a scrub would make its tenant's; a gathering has
one member a tile. -/
def State.targets (s : State) (x : Launch) (id : Nat) (i : Inst) (n : Nat) : List Nat :=
  let used := (FMap.getD s.places id []).map (·.2)
  (List.range 192).filter fun t =>
    s.openTile x i t && !used.contains t
      && ((s.fit x t n).isSome || ((s.tile t).owner != some x.tenant && s.scrubbable t))

/-- INSTANCE_START (R288): the launch's one instance, or the next index of a die's range when the die can place it. -/
def execInstanceStart (s : State) : Host.Outcome State Fault Refusal :=
  let id := s.focus.id
  let d := s.focus.die
  match s.launch id with
  | none => .next s
  | some x =>
    let all := List.range x.members
    if x.aborted || !s.inTurn id x then .next s
    else if !x.overDies then
      if x.handed = 0 then
        .next ((s.modLaunch id fun y => { y with handed := 1, insts := FMap.insert y.insts s.nextId { index := 0, toPlace := all } }).bump)
      else .next s
    else if !bitAt x.dieMask d || (s.die d).fenced then .next s
    else
      let room := (s.targets x 0 { index := 0, die := some d } (Config.freeNat s.free)).length
      match x.takeIndex d with
      | (none, _) => .next s
      | (some i, y) =>
        if room < x.members then .next s
        else
          .next ((s.modLaunch id fun _ =>
            { y with insts := FMap.insert y.insts s.nextId { index := i, die := some d, toPlace := all } }).bump)

/-- A code image, a dictionary and data written into a tile (R284). -/
def Tile.load (y : Tile) (x : Launch) (f : Fit) : Tile :=
  let k := x.kernel
  let r := Rec.ofBits x.record
  let bad := fun (m : FMap Unit) (a : Nat) (p : Bool) => if p then FMap.insert m a () else FMap.erase m a
  let y := (List.range k.codeLen).foldl (fun (y : Tile) i =>
    let w := imgWord x.image i
    { y with code := FMap.setD y.code (f.cb + i) (BitVec.ofNat 16 w.1) 0, codeBad := bad y.codeBad (f.cb + i) w.2 }) y
  let y := (List.range k.dictLen).foldl (fun (y : Tile) i =>
    let w := imgEntry k x.image i
    { y with dict := FMap.setD y.dict (f.db + i) (BitVec.ofNat 384 w.1) 0, dictBad := bad y.dictBad (f.db + i) w.2 }) y
  let y := y.putSems f.sembase ((List.range k.semCnt).map fun i => { value := BitVec.ofNat 16 (imgField x.image (320 + 2 * i) 2) })
  let m := k.secs.foldl (fun (m : Mem) e => m.write e.1 ((x.image.drop e.2.1).take e.2.2)) y.scratch
  { y with scratch := if r.argEn then (m.write r.argA (valBytes 8 r.arg0 false)).write (r.argA + 8) (valBytes 8 r.arg1 false) else m }

/-- A sync register from its image (Table 11.6). -/
def SyncReg.ofNat (w : Nat) : SyncReg :=
  { inc := BitVec.ofNat 8 (bits w 39 32), ssem := BitVec.ofNat 8 (bits w 31 24), thr := BitVec.ofNat 16 (bits w 23 8), wsem := BitVec.ofNat 8 (bits w 7 0) }

/-- IDX of a level at an iteration: Wrap(i·STEP, 32) (R287). -/
def idxOf (loops : FMap LoopLevel) (e : Nat × Nat) : BitVec 32 :=
  BitVec.ofInt 32 ((e.2 : Int) * signExt (FMap.getD loops e.1 ({} : LoopLevel)).step 16)

/-- The context of a member as the launch sets it (R284). -/
def Launch.member (x : Launch) (id inst index r : Nat) (f : Fit) : Ctx :=
  let k := x.kernel
  let q := Rec.ofBits x.record
  let levels := levelsOf x.loops 2 ++ levelsOf x.loops 3
  let its := radix (levelsOf x.loops 2) r ++ radix (levelsOf x.loops 3) index
  let k' : Ctx :=
    { st := .loading, pc := BitVec.ofNat 17 f.cb, cb := BitVec.ofNat 17 f.cb, prio := BitVec.ofNat 3 q.prio, valloc := BitVec.ofNat 7 k.valloc
      tenant := BitVec.ofNat 12 x.tenant, lvl := BitVec.ofBool q.sup, sup := BitVec.ofBool q.sup, sembase := BitVec.ofNat 8 f.sembase
      semcnt := BitVec.ofNat 9 k.semCnt, dictbase := BitVec.ofNat 13 f.db, dictlen := BitVec.ofNat 14 k.dictLen
      idx := its.foldl (fun m e => FMap.setD m (e.1 - 1) (idxOf x.loops e) 0) []
      gdim := levels.foldl (fun m e => FMap.insert m (e.1 - 1) (BitVec.ofNat 32 e.2)) []
      fmt := (List.range 16).foldl (fun m i => FMap.setD m i (BitVec.ofNat 64 (imgField x.image (64 + 8 * i) 8)) 0) []
      sync := (List.range 15).foldl (fun m i => FMap.setD m (i + 1) (SyncReg.ofNat (imgField x.image (192 + 8 * i) 8)) {}) []
      loops := x.loops, wdog := BitVec.ofNat 8 q.wdog, launch := id, inst := inst, member := r
      phbase := q.phbase, phcnt := q.phcnt, hpbase := q.hpbase, hpcnt := q.hpcnt, codeLen := k.codeLen, dictCap := k.dictLen }
  k'.openRegion (BitVec.ofNat 17 f.cb)

/-- The members of an instance begin issue together (R289). -/
def State.release (s : State) (inst : Nat) : State :=
  { s with tiles := s.tiles.map fun e =>
      (e.1, { e.2 with ctxs := e.2.ctxs.map fun k => if k.2.inst = inst && k.2.st == .loading then (k.1, { k.2 with st := .ready }) else k }) }

/-- A member goes to a tile: it is placed there, and the last one releases its instance (R284, R289). -/
def State.placeAt (s : State) (id inst r t : Nat) (x : Launch) (i : Inst) (f : Fit) : State :=
  let s := s.modTile t fun y => (y.load x f).setCtx f.num (x.member id inst i.index r f)
  let s := { s with places := FMap.insert s.places inst (FMap.insert (FMap.getD s.places inst []) r t) }
  let left := i.toPlace.tail
  let j := { i with toPlace := left, placed := i.placed ++ [r], released := left.isEmpty }
  let s := s.modLaunch id fun y => { y with insts := FMap.insert y.insts inst j }
  if left.isEmpty then s.release inst else s

/-- A tile begins its scrub for a tenant (12 R330). -/
def State.startScrub (s : State) (t tenant : Nat) : State := { s with scrubs := FMap.insert s.scrubs t (s.tickOf t + 4096, tenant) }

/-- Scrubs under way for a tenant. -/
def State.scrubsFor (s : State) (tenant : Nat) : Nat := (s.scrubs.filter fun e => e.2.2 == tenant).length

/-- MEMBER_PLACE (R284, R290): the next member of an instance goes to a tile, which one being free; a tile of another tenant is scrubbed
first, and none is for which the tenant has scrubs enough under way. -/
def execMemberPlace (s : State) : Host.Outcome State Fault Refusal :=
  let id := s.focus.id
  let inst := s.focus.args.getD 0 0
  match s.launch id with
  | none => .next s
  | some x =>
    match FMap.get? x.insts inst with
    | none => .next s
    | some i =>
      match i.toPlace with
      | [] => .next s
      | r :: _ =>
        if !s.inTurn id x then .next s
        else
          let (n, s) := s.draw
          let ts := s.targets x inst i n
          match ts[n / 8 % max 1 ts.length]? with
          | none => .next s
          | some t =>
            match s.fit x t n with
            | some f => .next (s.placeAt id inst r t x i f)
            | none => .next (if s.scrubsFor x.tenant < i.toPlace.length then s.startScrub t x.tenant else s)

/-- What a completed scrub leaves (12 R330). -/
def Tile.scrubbed (y : Tile) (tenant : Nat) : Tile :=
  { y with
    owner := some tenant, scratch := {}, om := {}, acc := [], anchors := [], claims := [], pins := [], set0 := {}, set1 := {}, loaders := 0
    code := [], codeBad := [], dict := [], dictBad := [], sems := [], fifos := [], overruns := [], lastCtx := 3, heldAt := none
    tookAt := 0, yielded := false, trapEntrySwitch := false, lock := none, ctxs := [] }

/-- SCRUB (12 R330): exactly 4,096 cycles of the tile's die after it began, the tile is clear and its tenant's. -/
def execScrub (s : State) : Host.Outcome State Fault Refusal :=
  let t := s.focus.tile
  match FMap.get? s.scrubs t with
  | none => .next s
  | some (due, tenant) =>
    if due ≤ s.tickOf t then .next (({ s with scrubs := FMap.erase s.scrubs t } : State).modTile t fun y => y.scrubbed tenant)
    else .next s

/-! ### Compaction (R291) -/

/-- A context may go to another die: its launch may hold members there (R279), its instance lies on one die no more than it can (R288), and
it is registered on no die phaser. -/
def State.mayCross (s : State) (d : Nat) (k : Ctx) : Bool :=
  (match s.launch k.launch with | some x => bitAt x.dieMask d && (!x.overDies || x.members == 1) | none => false)
    && k.phslots.all fun e => e.2.phaser.hub

/-- The contexts of a tile may go to another. -/
def State.mayMove (s : State) (a b : Nat) : Bool := dieOf a == dieOf b || (s.ctxsOn a).all (s.mayCross (dieOf b))

/-- A tile whose contexts may be moved to another: of the same owner, that one holding none, none of their images with an F-slot
command. -/
def State.mayCompact (s : State) (a b : Nat) : Bool :=
  let on := s.ctxsOn a
  a != b && a < 192 && b < 192 && s.moving.isNone && !on.isEmpty && (s.ctxsOn b).isEmpty && (s.tile a).owner == (s.tile b).owner
    && !(s.die (dieOf a)).fenced && !(s.die (dieOf b)).fenced && (FMap.get? s.scrubs b).isNone && s.scrubbable b
    && (on.all fun k => match s.launch k.launch with | some x => !x.hasF | none => false)
    && s.mayMove a b

/-- A tile's state goes to another tile, weight sets aside. -/
def Tile.moveTo (a b : Tile) : Tile :=
  { b with
    scratch := a.scratch, om := a.om, acc := a.acc, anchors := a.anchors, claims := a.claims, pins := a.pins, sems := a.sems
    code := a.code, codeBad := a.codeBad, dict := a.dict, dictBad := a.dictBad
    set0 := { b.set0 with valid := false }, set1 := { b.set1 with valid := false } }

/-- The move: state, placement maps, saved contexts, and the pins of their layout records. -/
def State.compact (s : State) (a b : Nat) : State :=
  let pins := (s.saved.filter fun v => v.back == a).foldl (fun n v => n + v.ctx.pinned) 0
  let s := (s.unpin (dieOf a) pins).modDie (dieOf b) fun x => { x with pinsUsed := x.pinsUsed + pins }
  let s := s.setTile b ((s.tile a).moveTo (s.tile b))
  let s := s.modTile a fun x => { x with claims := [], pins := [] }
  { s with
    moving := none
    places := s.places.map fun e => (e.1, e.2.map fun m => (m.1, if m.2 = a then b else m.2))
    launches := s.launches.map fun l => (l.1, { l.2 with insts := l.2.insts.map fun i =>
      (i.1, if (FMap.getD s.places i.1 []).any fun m => m.2 == a then { i.2 with die := i.2.die.map fun _ => dieOf b } else i.2) })
    saved := s.saved.map fun v => if v.back = a then { v with back := b } else v }

/-- COMPACTION (R291): named by a tile and the tile it is to go to, its contexts are asked to leave; when all are saved and nothing
reaches the tile any more, the tile moves. It is given up when a context has registered on a die phaser before it left. -/
def execCompaction (s : State) : Host.Outcome State Fault Refusal :=
  match s.moving with
  | none =>
    let a := s.focus.tile
    let b := s.focus.args.getD 0 0
    if s.mayCompact a b then
      let now := s.tickOf a
      let ask := fun (k : Ctx) => if k.preempt.isNone then { k with preempt := some { urgent := false, effectTick := now } } else k
      .next { (s.modTile a fun x => { x with ctxs := x.ctxs.map fun e => (e.1, ask e.2) }) with moving := some (a, b) }
    else .next s
  | some (a, b) =>
    if (s.die (dieOf a)).fenced || (s.die (dieOf b)).fenced then .next { s with moving := none }
    else if s.tileQuiet a then .next (if s.mayMove a b then s.compact a b else { s with moving := none })
    else .next s

/-! ### The distributor master after a fence (R292) -/

def State.fencedTile (s : State) (t : Nat) : Bool := (s.die (dieOf t)).fenced

/-- Instances of a launch that lost a member with a fenced die. -/
def State.lostInsts (s : State) (x : Launch) : List (Nat × Inst) :=
  x.insts.filter fun e => ((FMap.getD s.places e.1 []).any fun m => s.fencedTile m.2)
    || (match e.2.die with | some d => (s.die d).fenced | none => false)

/-- Ranges of fenced dies: issued indices not started. -/
def State.lostRanges (s : State) (x : Launch) : List Nat := (x.ranges.filter fun r => (s.die r.1).fenced).flatMap (·.2)

/-- The lost indices of a reissuable launch are to be handed out again, in rising order. -/
def State.reissue (s : State) (id : Nat) (x : Launch) : State :=
  let lost := s.lostInsts x
  let ids := lost.map (·.1)
  let again := (lost.map (·.2.index) ++ s.lostRanges x ++ x.again).mergeSort
  { s with
    places := s.places.filter fun e => !ids.contains e.1
    launches := FMap.insert s.launches id { x with
      again := again
      ranges := x.ranges.filter fun r => !(s.die r.1).fenced
      insts := x.insts.filter fun e => !ids.contains e.1 } }

/-- End the surviving members of an instance as HALT ends them; members lost or never placed count as ended, each once (R292). -/
def State.abortInst (s : State) (id : Nat) (e : Nat × Inst) : State :=
  let map := FMap.getD s.places e.1 []
  let gone := e.2.toPlace ++ (map.filter fun m => s.fencedTile m.2).map (·.1)
  let s := s.modLaunch id fun x => { x with insts := FMap.insert x.insts e.1 { e.2 with toPlace := [] } }
  let live := s.tiles.flatMap fun t => (t.2.ctxs.filter fun k => k.2.launch == id && k.2.inst == e.1).map fun k => (t.1, k.1)
  let saved := s.saved.filter fun v => v.ctx.launch == id && v.ctx.inst == e.1
  let s := live.foldl (fun s p => s.endCtx p.1 p.2) s
  let s := saved.foldl (fun s v => s.endSaved v) s
  gone.foldl (fun s r => s.memberEnded id e.1 r) s

/-- A launch is aborted: no further index is issued, and the instances that lost a member end. -/
def State.abortLaunch (s : State) (id : Nat) (x : Launch) : State :=
  let lost := s.lostInsts x
  let s := s.modLaunch id fun y => { y with aborted := true, handed := y.indices, again := [], ranges := [] }
  (lost.foldl (fun s e => s.abortInst id e) s).completeLaunch id

/-- A launch after a fence. -/
def State.afterFence (s : State) (id : Nat) : State :=
  match s.launch id with
  | none => s
  | some x =>
    if (s.lostInsts x).isEmpty && (s.lostRanges x).isEmpty then s
    else if x.reissues then s.reissue id x
    else if x.aborted then (s.lostInsts x).foldl (fun s e => s.abortInst id e) s
    else s.abortLaunch id x

/-- MASTER_ELECTION (R292): the lowest live die becomes master when the master is fenced, and lost work is reissued or ended. -/
def execMasterElection (s : State) : Host.Outcome State Fault Refusal :=
  let live := (List.range 4).filter fun d => !(s.die d).fenced
  let s := if (s.die s.master).fenced then { s with master := live.getD 0 s.master } else s
  .next ((s.launches.map (·.1)).foldl (fun s id => s.afterFence id) s)

end Sys2Proof.Machine
end

