-- ==== Sys2Proof/Machine/Register.lean ====
section
/-! DEFINITION. Registration (10 R248 to R253): the beacon graph, beacons, the filter, registration domains; links up and down (10 R276,
R277; 13 R366). -/

namespace Sys2Proof.Machine

/-! ### The beacon graph (R249, R250) -/

/-- Compute dies that a die link joins (01 R11). -/
def adjacentDies (a b : Nat) : Bool := a < 4 && b < 4 && (a + b == 1 || a + b == 5 || (a != b && a % 2 == b % 2))

/-- The opposite torus port of an axis. -/
def oppositeTorus (p : Nat) : Nat := if p % 2 = 0 then p + 1 else p - 1

/-- Hub-to-hub latency of a torus port as its training measured it; 0 untrained (R249, R276). -/
def State.hubLat (s : State) (p : Nat) : Nat := (FMap.getD (s.die 4).linklat p 0).toNat

/-- A torus port is an edge of the beacon graph: trained, and named by the registrations in force at both ends (R250). -/
def State.torusEdge (s : State) (p : Nat) : Bool :=
  p < 6 && s.hubLat p != 0 && s.regPorts.getLsbD p && !s.apart.getLsbD p
    && (if s.loopback.getLsbD p then s.regPorts.getLsbD (oppositeTorus p) else s.farPorts.getLsbD p)

/-- Link l of node n is an edge of the beacon graph: nodes 0 to 3 are the compute dies, 4 the hub die; links as R251 numbers them. -/
def State.edge (s : State) (n l : Nat) : Bool :=
  let cut := ((s.die n).downLinks ++ (s.die n).apartLinks).contains l
  if n = 4 then (if l < 4 then !(s.die l).fenced && !cut else 5 ≤ l && s.torusEdge (l - 5))
  else if l = 4 then !(s.die n).fenced && !cut
  else adjacentDies n l && !(s.die n).fenced && !(s.die l).fenced && !cut

/-- KEYID of a key die of this package (R249). -/
def State.keyIdOf (s : State) (d : Nat) : Nat := 4 * s.nodeId + d

/-- A node is the key die. -/
def State.isKey (s : State) (n : Nat) : Bool := s.keyDie == some n

/-- The pending stretch announcement a node knows: one whose time its key time has not reached (R253). -/
def Die.pendingStretch (x : Die) : Option (Nat × Nat) :=
  x.stretches.find? fun e => !reached x.keyTime (BitVec.ofNat 64 e.2)

/-! ### Beacons (R249, R251) -/

/-- Lb of die links. -/
def dieLinkLat : Nat := 12

/-- What a node's beacon carries. -/
def State.beaconOf (s : State) (n dest link lb : Nat) : Beacon :=
  let x := s.die n
  { dest := dest, link := link, due := (s.die dest).tick + lb, lb := lb, time := x.keyTime, dist := if s.isKey n then 0 else x.dist
    reg := x.registered, keyId := if s.isKey n then s.keyIdOf n else x.keyId, stretch := x.pendingStretch }

/-- A beacon leaves on one link: to a die of the package, back in through a loop cable, or out to a neighbour. -/
def State.sendBeacon (s : State) (n l : Nat) : State :=
  if !s.edge n l then s
  else if l < 5 then { s with beacons := s.beacons ++ [s.beaconOf n l n dieLinkLat] }
  else
    let p := l - 5
    let b := s.beaconOf n 4 (5 + oppositeTorus p) (s.hubLat p)
    if s.loopback.getLsbD p then { s with beacons := s.beacons ++ [b] }
    else
      let st := b.stretch.getD (0, 0)
      s.send { kind := sBeacon, dest := p, nums := [b.time.toNat, b.dist, bit01 b.reg, b.keyId, st.1, st.2] }

/-- BEACON_SEND (R249): in a cycle whose TICK is a multiple of 1,024 every link of a node carries its beacon. -/
def execBeaconSend (s : State) : Host.Outcome State Fault Refusal :=
  let n := s.focus.die
  if (s.die n).tick % 1024 != 0 || (s.die n).fenced then .next s
  else .next ((List.range 11).foldl (fun s l => s.sendBeacon n l) s)

/-- The least DIST that a link brought in the last 4,096 cycles. -/
def Heard.least (h : Heard) (now : Nat) : Option Nat :=
  (h.dists.filter fun p => now < p.1 + 4096).foldl (fun a p => match a with | some d => some (min d p.2) | none => some p.2) none

/-- A link brings one more beacon. -/
def Heard.hears (h : Heard) (now dist : Nat) : Heard := { heardAt := now, dists := (now, dist) :: h.dists.filter fun p => now < p.1 + 4096 }

/-- The least DIST heard in the last 4,096 cycles on links of the graph, and the link it came on: the lowest of several. -/
def State.bestHeard (s : State) (n : Nat) : Option (Nat × Nat) :=
  let x := s.die n
  x.heard.foldl (fun best e =>
    match if s.edge n e.1 then e.2.least x.tick else none with
    | none => best
    | some d =>
      match best with
      | some b => if d < b.1 then some (d, e.1) else best
      | none => some (d, e.1)) none

/-- DIST and parent follow from what was heard; a change of parent sets good to 0. -/
def State.chooseParent (s : State) (n : Nat) : State :=
  let best := s.bestHeard n
  let parent := best.map (·.2)
  s.modDie n fun x =>
    { x with
      dist := match best with | some b => min 255 (b.1 + 1) | none => 255
      parent := parent
      good := if parent = x.parent then x.good else 0 }

/-- The filter's update from a parent's beacon (R251): KEYOFF and good. -/
def filterStep (keyoff : Word) (good : Nat) (d : Int) : Word × Nat :=
  if d.natAbs > 16 then (keyoff + BitVec.ofInt 64 d, 0)
  else (keyoff + BitVec.ofInt 64 d.sign, if d.natAbs ≤ 1 then good + 1 else 0)

/-- A node takes its parent's beacon; one of the two that runs below step N has drifted beyond the slew, and the node steps (R255, 17 R385;
log 7). -/
def Die.follow (x : Die) (b : Beacon) (drifts : Bool) : Die :=
  let d := ((b.time + BitVec.ofNat 64 b.lb) - (BitVec.ofNat 64 x.tick + x.keyoff)).toInt
  let f := if drifts then (x.keyoff + BitVec.ofInt 64 d, 0) else filterStep x.keyoff x.good d
  { x with keyoff := f.1, good := f.2, registered := 8 ≤ f.2 && b.reg, keyId := b.keyId }

/-- A node or the die of the package at the other end of a link runs below step N. -/
def State.drifts (s : State) (n l : Nat) : Bool := (s.die n).clock != 0 || (l < 4 && (s.die l).clock != 0)

/-- A link leaves the beacon graph at both of its ends (R250). -/
def State.partLink (s : State) (n l : Nat) : State :=
  if 5 ≤ l then { s with apart := s.apart ||| (1#6 <<< (l - 5)) }
  else (s.modDie n fun x => { x with apartLinks := l :: x.apartLinks }).modDie l fun x => { x with apartLinks := n :: x.apartLinks }

/-- No beacon of its parent has reached a node for 4,096 cycles (R251). -/
def State.parentSilent (s : State) (n : Nat) : Bool :=
  let x := s.die n
  match x.parent with
  | none => false
  | some l => match FMap.get? x.heard l with | some h => h.heardAt + 4096 ≤ x.tick | none => true

/-- A node whose parent is silent: good and registered clear, and what else it has heard gives it a parent (R251). -/
def State.loseParent (s : State) (n : Nat) : State := (s.modDie n fun x => { x with good := 0, registered := false }).chooseParent n

/-- A cycle of a node goes by: what it heard 4,096 cycles ago counts no more for its DIST and its parent (R251). -/
def State.forgetHeard (s : State) (n : Nat) : State :=
  let x := s.die n
  if s.isKey n || x.fenced || !(x.heard.any fun e => e.2.dists.any fun p => p.1 + 4096 == x.tick) then s else s.chooseParent n

/-- A beacon is heard: its announcement, its DIST, and the filter when it is the parent's. -/
def State.hear (s : State) (b : Beacon) : State :=
  let n := b.dest
  let x := s.die n
  let own := if s.isKey n then s.keyIdOf n else x.keyId
  if x.fenced || !s.edge n b.link then s
  else if x.registered && b.reg && b.keyId != own then s.partLink n b.link
  else
    let s := if s.parentSilent n && x.parent != some b.link then s.loseParent n else s
    let s := s.modDie n fun x =>
      { x with
        heard := FMap.insert x.heard b.link ((FMap.getD x.heard b.link { heardAt := x.tick }).hears x.tick b.dist)
        stretches := match b.stretch with
          | some e => if x.stretches.any fun o => o.2 == e.2 then x.stretches else x.stretches ++ [e]
          | none => x.stretches }
    if s.isKey n then s
    else
      let s := s.chooseParent n
      if (s.die n).parent = some b.link then s.modDie n fun x => x.follow b (s.drifts n b.link) else s

/-- The beacon that a neighbouring package's hub sent, from its numbers: port, time, DIST, REG, KEYID, and its announcement. -/
def State.farBeacon (s : State) (a : List Nat) : Beacon :=
  let p := a.getD 0 0
  { dest := 4, link := 5 + p, due := (s.die 4).tick, lb := s.hubLat p, time := BitVec.ofNat 64 (a.getD 1 0), dist := min 255 (a.getD 2 0)
    reg := a.getD 3 0 != 0, keyId := a.getD 4 0, stretch := if a.getD 5 0 = 0 then none else some (a.getD 5 0, a.getD 6 0) }

/-- BEACON_RECEIVE (R251): the first beacon present at a node in this cycle; or one that another package sent comes to the hub, whose
filter takes it at the end of the cycle as it does others. -/
def execBeaconReceive (s : State) : Host.Outcome State Fault Refusal :=
  match s.focus.args with
  | [] =>
    let n := s.focus.die
    let now := (s.die n).tick
    match s.beacons.find? fun b => b.dest == n && b.due ≤ now with
    | none => .next s
    | some b => .next (({ s with beacons := s.beacons.erase b } : State).hear b)
  | a => .next { s with beacons := s.beacons ++ [s.farBeacon a] }

/-- PARENT_BEACON_TIMEOUT (R251): good and registered clear. -/
def execParentBeaconTimeout (s : State) : Host.Outcome State Fault Refusal :=
  let n := s.focus.die
  if s.isKey n || (s.die n).fenced || !s.parentSilent n then .next s
  else .next (s.loseParent n)

/-! ### The domain (R250, R253; 13 R370) -/

/-- A die registers afresh; the key die is registered while it is designated. -/
def Die.reRegister (x : Die) (key : Bool) : Die :=
  { x with
    registered := key
    good := 0
    heard := []
    parent := none
    dist := if key then 0 else 255
    keyoff := if key then 0 else x.keyoff }

/-- Every die of the package clears registered and registers again. -/
def State.reRegister (s : State) : State :=
  (List.range 5).foldl (fun s n => s.modDie n fun x => if x.fenced then x else x.reRegister (s.isKey n)) s

/-- A domain is set up: its ports, its key die, no stretch and no request for one, every link in the graph again (R250, R253). -/
def State.setDomain (s : State) (ports : BitVec 6) (key : Option Nat) : State :=
  let s := { s with regPorts := ports, keyDie := key, apart := 0, power := { s.power with held := 0 } }
  (List.range 5).foldl (fun s n => s.modDie n fun x => { x with stretches := [], apartLinks := [] }) s.reRegister

/-- The registration domain is this package alone: the torus links it names lead back to it (R250). -/
def State.aloneDomain (s : State) : Bool := (List.range 6).all fun p => !s.regPorts.getLsbD p || s.loopback.getLsbD p

/-- Every die of the package that lives is registered. -/
def State.allRegistered (s : State) : Bool := (List.range 5).all fun n => (s.die n).registered || (s.die n).fenced

/-- The lowest live compute die. -/
def State.lowestLive (s : State) : Option Nat := (List.range 4).find? fun d => !(s.die d).fenced

/-- KEY_DIE_REDESIGNATION (13 R370): in a domain of one package the lowest live die takes the place of a fenced key die. -/
def execKeyDieRedesignation (s : State) : Host.Outcome State Fault Refusal :=
  match s.keyDie, s.lowestLive with
  | some k, some d =>
    if (s.die k).fenced && s.aloneDomain then .next { s with keyDie := some d }.reRegister else .next s
  | _, _ => .next s

/-! ### The stretch (R253; 17 R388) -/

/-- A stretch request on its way to the master: kept there as the largest, sent on up the tree, or dropped (17 R388). -/
def State.requestStretch (s : State) (delta : Nat) : State :=
  match s.keyDie with
  | some k => if (s.die k).fenced then s else { s with power := { s.power with held := max s.power.held delta } }
  | none =>
    match (s.die 4).parent with
    | some l => if 5 ≤ l then s.send { kind := sStretch, dest := l - 5, nums := [delta] } else s
    | none => s

/-- STRETCH_ANNOUNCE (17 R388, R253): with nothing of its own pending, the master announces the largest request it holds, 2^18 cycles
ahead; with a number, another arbiter's request arrives. -/
def execStretchAnnounce (s : State) : Host.Outcome State Fault Refusal :=
  match s.focus.args with
  | d :: _ => .next (s.requestStretch (min d 65535))
  | [] =>
    match s.keyDie with
    | none => .next s
    | some k =>
      let x := s.die k
      if x.fenced || s.power.held = 0 || x.pendingStretch.isSome then .next s
      else
        let teff := (x.keyTime + 0x40000#64).toNat
        .next (({ s with power := { s.power with held := 0 } } : State).modDie k fun x =>
          { x with stretches := x.stretches ++ [(s.power.held, teff)] })

/-! ### Links (R276, R277; 13 R366)

Links are numbered 0 to 5 for the torus ports, 6 to 9 for the hub links of dies 0 to 3, 10 to 13 for the die links 0-1, 0-2, 1-3 and 2-3,
and 14 to 21 for the ports to switches 0 to 7 (log 32). -/

def dieLink (l : Nat) : Nat × Nat := match l with | 10 => (0, 1) | 11 => (0, 2) | 12 => (1, 3) | _ => (2, 3)

/-- A link of the package goes down or comes up at both of its ends. -/
def State.cutLink (s : State) (a b : Nat) : State :=
  (s.modDie a fun x => { x with downLinks := if x.downLinks.contains b then x.downLinks else b :: x.downLinks }).modDie b fun x =>
    { x with downLinks := if x.downLinks.contains a then x.downLinks else a :: x.downLinks }
def State.joinLink (s : State) (a b : Nat) : State :=
  (s.modDie a fun x => { x with downLinks := x.downLinks.filter (· != b) }).modDie b fun x =>
    { x with downLinks := x.downLinks.filter (· != a) }

/-- LINKLAT of a torus port on every die, and its hub-to-hub latency. -/
def State.setLat (s : State) (p lat hub : Nat) : State :=
  let s := (List.range 4).foldl (fun s d => s.modDie d fun x => { x with linklat := FMap.setD x.linklat p (BitVec.ofNat 16 lat) 0 }) s
  s.modDie 4 fun x => { x with linklat := FMap.setD x.linklat p (BitVec.ofNat 16 hub) 0 }

/-- LINK_DOWN (13 R366, 09 R246): the link named is down and is to be retrained; a torus port then reads LINKLAT 0 (10 R276). -/
def execLinkDown (s : State) : Host.Outcome State Fault Refusal :=
  let l := s.focus.args.getD 0 22
  if l < 6 then .next { s.setLat l 0 0 with replays := FMap.erase s.replays l }
  else if l < 10 then
    .next ((s.cutLink (l - 6) 4).modDie (l - 6) fun x => { x with hubDownAt := match x.hubDownAt with | some n => some n | none => some (s.die 4).tick })
  else if l < 14 then .next (s.cutLink (dieLink l).1 (dieLink l).2)
  else if l < 22 then
    let w := { s.switch (l - 14) with portUp := false }
    .next { s with switches := FMap.insert s.switches (l - 14) w }
  else .next s

/-- LINK_TRAINING (10 R276): a link trains. For a torus port the numbers are LINKLAT, the hub-to-hub latency, whether it is at full width,
whether its cable leads back to the package's own opposite port, and whether the far package's registration names it; a LINKLAT that
is not 0 does not change, and of a trained port only the last is news: the far package's REGSET (R250). -/
def execLinkTraining (s : State) : Host.Outcome State Fault Refusal :=
  let l := s.focus.args.getD 0 22
  let arg := fun i => s.focus.args.getD i 0
  if l < 6 then
    let bit : BitVec 6 := 1#6 <<< l
    let far := if arg 5 != 0 then s.farPorts ||| bit else s.farPorts &&& ~~~bit
    if s.hubLat l != 0 then .next { s with farPorts := far }
    else if arg 2 = 0 || 65535 < arg 2 || (arg 3 != 0 && !(120 ≤ arg 1 && arg 1 ≤ 400)) then .next s
    else
      .next { s.setLat l (if arg 3 != 0 then arg 1 else 0) (arg 2) with
        loopback := if arg 4 != 0 then s.loopback ||| bit else s.loopback &&& ~~~bit
        farPorts := far }
  else if l < 10 then .next ((s.joinLink (l - 6) 4).modDie (l - 6) fun x => { x with hubDownAt := none })
  else if l < 14 then .next (s.joinLink (dieLink l).1 (dieLink l).2)
  else if l < 22 then
    let w := { s.switch (l - 14) with portUp := true }
    .next { s with switches := FMap.insert s.switches (l - 14) w }
  else .next s

/-- FLIT_REPLAY (10 R277, 13 R366): a NAK that names the last good flit of a torus port starts a replay from the one after it; the
sixteenth in a row without acknowledgement marks the link down. A third number is an acknowledgement. -/
def execFlitReplay (s : State) : Host.Outcome State Fault Refusal :=
  let p := s.focus.args.getD 0 6
  let good := s.focus.args.getD 1 0
  if 6 ≤ p || s.hubLat p = 0 then .next s
  else if s.focus.args.getD 2 0 != 0 then .next { s with replays := FMap.erase s.replays p }
  else
    let n := FMap.getD s.replays p 0 + 1
    let s := ({ s with replays := FMap.insert s.replays p n } : State).send { kind := sReplay, dest := p, nums := [good + 1] }
    .next (if 16 ≤ n then s.soon .linkDown { args := [p] } else s)

end Sys2Proof.Machine
end

