-- ==== Sys2Proof/Machine/Fence.lean ====
section
/-! DEFINITION. A fenced die (13 R369 to R372): what stops, what the hub reports of its commands, what becomes of its phasers; remote
requests that nothing answers (13 R366). -/

namespace Sys2Proof.Machine

/-- A die is to be fenced: its hub link has been down for 4,194,304 cycles, or its hottest sensor has tripped (R369, 17 R389). -/
def State.fenceDue (s : State) (d : Nat) : Bool :=
  (match (s.die d).hubDownAt with | some n => n + 4194304 ≤ (s.die 4).tick | none => false) || 1050 ≤ s.power.sensors.getD d 0

/-- The chunk that a command which a fence stops has begun to write is finished, so that it holds wholly new bytes; all of it is
fetched by then (R371). -/
def State.finishChunk (s : State) (t : Nat) (x : XCmd) : State :=
  match if x.span.1 < x.dstAt then x.puts else none with
  | some (da, left) => (s.writeSide x.dst.segs da (x.buf.take left)).modTile t fun y => y.setX (x.wroteBytes t da left)
  | none => s

/-- A COPY, GET, PUT or SCATTER that a fence stops: accepted, and neither held nor ended otherwise (R372). -/
def XCmd.fenceStops (x : XCmd) : Bool :=
  (x.op == .copy || x.op == .scatter) && x.head.st != .held && !x.stopped

/-- Bytes 4 to 31 of the entry of kind 3 for a stopped command (R372, Table 13.3). -/
def XCmd.fenceEntry (x : XCmd) (t : Nat) : List Byte :=
  entryBytes 0 (entryFlags (x.head.ctx % 4) false false x.head.slot) (2 + x.done) 3 x.tenant t 0 x.head.pc.toNat 0 (BitVec.ofNat 64 x.dst.va) 0 0

/-- The commands of a tile stop: chunks are finished, and the queue of the lowest live die takes the entries. -/
def State.stopX (s : State) (t : Nat) (live : Option Nat) : State :=
  let s := (s.tile t).xq.foldl (fun s x => if x.fenceStops then s.finishChunk t x else s) s
  (s.tile t).xq.foldl (fun s x =>
    match live with
    | some d => if x.fenceStops then s.bump.postEntry d { id := s.nextId, tenant := x.tenant, bytes := x.fenceEntry t } else s
    | none => s) s

/-- A slot of a lost context leaves a hub phaser without arriving: OVERRUN and every remaining member's pending-overrun bit are set
(R370). -/
def State.loseSlot (s : State) (e : PhaserSlot) : State :=
  match s.phaser e.phaser with
  | none => s
  | some x =>
    if !e.phaser.hub then s
    else if !s.hasMember e.phaser then { s with phasers := FMap.erase s.phasers e.phaser.key }
    else
      let x := { x with overrun := true, nsigNext := if e.role.signals then x.nsigNext - 1 else x.nsigNext }
      (s.setPhaser e.phaser x).mapMembers e.phaser fun y => { y with overrun := true }

/-- The contexts of a die: on its tiles, and saved from them. -/
def State.ctxsOfDie (s : State) (d : Nat) : List Ctx :=
  ((s.tiles.filter fun e => dieOf e.1 == d).flatMap fun e => e.2.ctxs.map (·.2))
    ++ (s.saved.filter fun v => dieOf v.back == d).map (·.ctx)

/-- A tile of a fenced die stands still with nothing on it. -/
def Tile.stopped (x : Tile) : Tile :=
  { x with
    ctxs := [], mq := [], xq := [], fq := [], beat := none, fetch := none, granteds := [], granted := [], linkRes := [], bankRes := []
    lock := none }

/-- A request of another package is answered: its status, and the bytes read with which of them are poisoned (12 R334). -/
def State.answerInbound (s : State) (node status : Nat) (bs : List (Byte × Bool)) : State :=
  s.send { kind := sRemote, dest := node, nums := status :: bs.map fun b => bit01 b.2, bytes := bs.map (·.1) }

/-- An access of the host is answered by its data pair: the bytes read, or a NAK (12 R337). -/
def State.answerHost (s : State) (qp status : Nat) (bs : List (Byte × Bool)) : State :=
  if status = 0 then s.send { kind := sRdma, dest := qp, nums := bs.map fun b => bit01 b.2, bytes := bs.map (·.1) }
  else s.send { kind := sNak, dest := qp }

/-- A request is answered to whom it came from. -/
def State.answer (s : State) (r : Inbound) (status : Nat) (bs : List (Byte × Bool)) : State :=
  if r.host then s.answerHost r.node status bs else s.answerInbound r.node status bs

/-- A request has bytes of a die's memory still to move. -/
def Inbound.needs (r : Inbound) (d : Nat) : Bool :=
  (cutSegs r.segs r.done (r.total - r.done)).any fun g => { r with segs := [g], done := 0 : Inbound }.agent == d

/-- The requests that a die serves end, as those for memory of a fenced die do. -/
def State.refuseInbound (s : State) (d : Nat) : State :=
  (s.inbound.filter fun r => r.needs d).foldl (fun s r => s.answer r 3 []) { s with inbound := s.inbound.filter fun r => !r.needs d }

/-- The fence (R369, R370): the die stops, its contexts end without a save, its phasers become inactive. -/
def State.fence (s : State) (d : Nat) : State :=
  let s := s.modDie d fun x => { x with fenced := true, registered := false, clockTo := none }
  let ts := (s.tiles.filter fun e => dieOf e.1 == d).map (·.1)
  let live := s.lowestLive
  let s := (ts.foldl (fun s t => s.stopX t live) s).refuseInbound d
  let slots := (s.ctxsOfDie d).flatMap fun k => k.phslots.map (·.2)
  let now := (s.die d).tick
  let s := { s with
    tiles := s.tiles.map fun e => if dieOf e.1 = d then (e.1, e.2.stopped) else e
    saved := s.saved.filter fun v => dieOf v.back != d
    mesh := s.mesh.filter fun r => dieOf r.tile != d
    phasers := s.phasers.filter fun e => e.1 / 1024 != d
    scrubs := s.scrubs.filter fun e => dieOf e.1 != d
    moving := match s.moving with | some (a, b) => if dieOf a = d || dieOf b = d then none else some (a, b) | none => none
    air := s.air.map fun f => if f.die = d then { f with die := dieOf f.tile, due := (s.die (dieOf f.tile)).tick + (f.due - now) } else f }
  slots.foldl State.loseSlot s

/-- DIE_FENCE (R369): the die named is fenced when one of the causes holds; a number says that a scrub failed, or if it is not 0 that an
uncorrectable error met its distributor, selector or translation state, which is counted (17 R395). -/
def execDieFence (s : State) : Host.Outcome State Fault Refusal :=
  let d := s.focus.die
  if 4 ≤ d || (s.die d).fenced || (s.focus.args.isEmpty && !s.fenceDue d) then .next s
  else .next ((if s.focus.args.headD 0 = 0 then s else s.countError d 5 true d).fence d)

/-- A running command has a remote request that nothing has answered for 16,777,216 cycles since it departed (R366). -/
def XCmd.unanswered (x : XCmd) (now : Nat) : Bool :=
  match x.asked with
  | some since => x.head.st == .running && x.status == 0 && !x.stopped && since + 16777216 ≤ now
  | none => false

/-- REMOTE_REQUEST_TIMEOUT (R366): the command completes with UNREACH; what it still delivers to a tile memory is poisoned, and a chunk
that it has begun to write is written to its end (R371). -/
def execRemoteRequestTimeout (s : State) : Host.Outcome State Fault Refusal :=
  let t := s.focus.tile
  match (s.tile t).findX s.focus.id with
  | none => .next s
  | some x =>
    if !x.unanswered (s.tickOf t) then .next s
    else
      .next (s.modTile t fun y =>
        y.setX { x with status := 3, asked := none, stopped := x.dst.isRemote })

end Sys2Proof.Machine
end

