-- ==== Sys2Proof/Machine/Manage.lean ====
section
/-! DEFINITION. The host port (12 R336 to R341; 17 R390 to R395): management messages, RDMA, the power arbiter (17 R385 to R389), reset and
bring-up, requests from other packages (12 R334), sheet-table updates (09 R238), patrols (17 R394). -/

namespace Sys2Proof.Machine

/-! ### Messages (R338)

A message is its queue pair, its eight first bytes, and its arguments as numbers in the order of Tables 12.6 and 17.6 (log 33). -/

structure Message where
  qp : Nat
  opc : Nat
  zero : Bool
  tag : List Byte
  args : List Nat
  deriving DecidableEq, Repr

def Message.ofArgs (l : List Nat) : Message :=
  { qp := l.getD 0 0, opc := l.getD 1 0 % 256, zero := (rangeFrom 2 3).all fun i => l.getD i 0 == 0
    tag := (rangeFrom 5 4).map fun i => BitVec.ofNat 8 (l.getD i 0), args := l.drop 9 }

def Message.arg (m : Message) (i : Nat) : Nat := m.args.getD i 0

/-- No reserved byte is nonzero: bytes 1 to 3, and what follows an operation's n arguments. -/
def Message.plain (m : Message) (n : Nat) : Bool := m.zero && (m.args.drop n).all fun a => a == 0

/-- A reply: the tag, the status, and what the operation answers. -/
def State.reply (s : State) (m : Message) (status : Nat) (nums : List Nat := []) (bytes : List Byte := []) : State :=
  s.send { kind := sReply, dest := m.qp, nums := status :: nums, bytes := m.tag ++ bytes }

/-- The message came by a management pair. -/
def State.fromManagement (s : State) (m : Message) : Bool :=
  match FMap.get? s.pairs m.qp with | some p => p.cls == 0 | none => false

/-- A package whose firmware check failed answers only what loads an image (R339, 17 Table 17.5). -/
def State.answers (s : State) (always : Bool) : Bool := s.boot.good || always

/-- A management operation of n arguments: malformed when a reserved byte or an argument is out of its range (R338). -/
def manage (opc n : Nat) (always : Bool) (ok : Message → Bool) (f : Message → State → State) (s : State) :
    Host.Outcome State Fault Refusal :=
  let m := Message.ofArgs s.focus.args
  if !s.fromManagement m || m.opc != opc || !s.answers always then .next s
  else if !m.plain n || !ok m then .next (s.reply m 1)
  else .next (f m s)

/-! ### Tables of the operator (Table 12.6) -/

/-- A tenant owns a tile or a live slot (R338). -/
def State.tenantHolds (s : State) (tenant : Nat) : Bool :=
  (s.tiles.any fun e => e.2.owner == some tenant) || s.keys.any fun e => e.2.tenant == tenant

/-- A descriptor word as Table 12.2 lays it out. -/
def descOk (ws : List Nat) : Bool :=
  let w := ws.getD 0 0
  w < 2 ^ 12 && w % 4 != 3 && (ws.drop 1).all fun w => w < 2 ^ 39 && w % 4096 / 2 == 0

/-- TENSET (R321, R338). -/
def execTenset : State → Host.Outcome State Fault Refusal :=
  manage 0x01 6 false (fun m => m.arg 0 < 4096 && descOk ((rangeFrom 1 5).map m.arg)) fun m s =>
    let t := m.arg 0
    if m.arg 1 % 4 = 0 && s.tenantHolds t then s.reply m 2
    else ({ s with descs := FMap.insert s.descs t ((rangeFrom 1 5).map fun i => BitVec.ofNat 64 (m.arg i)) } : State).reply m 0

/-- A range of translated offsets of a tenant's space: tenant, space, first offset, length. -/
abbrev VRange := Nat × Nat × Nat × Nat

/-- A page of a TLB meets a range. -/
def TlbEntry.meets (e : TlbEntry) (r : VRange) : Bool :=
  e.tenant == r.1 && e.space == r.2.1 && overlaps (e.vpn * 2 ^ e.shift) (2 ^ e.shift) r.2.2.1 r.2.2.2

/-- What a tenant's walk has ended with is about a range: its leaf's page, or its own. -/
def WalkReq.meets (w : WalkReq) (tenant : Nat) (r : VRange) : Bool :=
  match w.res with
  | some (.leaf e) => e.meets r
  | _ => tenant == r.1 && w.space == r.2.1 && overlaps (w.off / 4096 * 4096) 4096 r.2.2.1 r.2.2.2

/-- No TLB holds a translation of a range, and no walk that has ended for one answers (R327). -/
def State.dropRange (s : State) (r : VRange) : State :=
  let keep := fun (l : List TlbEntry) => l.filter fun e => !e.meets r
  let walk := fun (k : Ctx) => { k with walks := k.walks.map fun w => if w.meets k.tenant.toNat r then { w with res := none } else w }
  { s with
    tiles := s.tiles.map fun e => (e.1, { e.2 with tlb := keep e.2.tlb, ctxs := e.2.ctxs.map fun k => (k.1, walk k.2) })
    dies := s.dies.map fun e => (e.1, { e.2 with tlb := keep e.2.tlb }) }

/-- A side's bytes lie in a range. -/
def Side.within (s : State) (y : Side) (r : VRange) : Bool :=
  match ((GAddr.ofWord (BitVec.ofNat 64 y.va)).map (GAddr.local s)).bind GAddr.xspace with
  | some (space, off) => space == r.2.1 && overlaps off y.len r.2.2.1 r.2.2.2
  | none => false

/-- A command translated a page of a range at issue: by its page, or by a range entry (R327). -/
def State.translated (s : State) (x : XCmd) (r : VRange) : Bool :=
  x.tenant == r.1 && x.idents.any fun i =>
    if i.2.1 = 99 then i.1 == r.2.1 && [x.src, x.dst, x.list].any fun y => y.within s r
    else i.1 == r.2.1 && overlaps (i.2.2 * 2 ^ i.2.1) (2 ^ i.2.1) r.2.2.1 r.2.2.2

/-- Every command accepted before a message that translated a page of a range has completed. -/
def State.rangeIdle (s : State) (before : Nat) (r : VRange) : Bool :=
  !(s.tiles.any fun e => e.2.xq.any fun x => x.head.id < before && s.translated x r)

/-- Pins that are held: the tenant, the pinned pieces, and how many translations they are. -/
abbrev Pins := Nat × List Seg × Nat

/-- The pins of a context's layout records. -/
def Ctx.layoutPins (k : Ctx) : List Pins := (k.layouts.filter fun y => y.2.live).map fun y => (k.tenant.toNat, y.2.segs, y.2.pins)

/-- The pins of a tile's LAYREG and LAYDROP commands under way: a LAYDROP's go at its completion (09 R226, R227). -/
def Tile.cmdPins (x : Tile) : List Pins :=
  (x.xq.filter fun c => (c.op == .layreg || c.op == .laydrop) && c.pinCount != 0).map fun c => (c.tenant, c.pinned, c.pinCount)

/-- The pins of a die, held by its contexts, saved ones too, and by its commands. -/
def State.diePins (s : State) (d : Nat) : List Pins :=
  (s.ctxsOfDie d).flatMap Ctx.layoutPins ++ (s.tiles.filter fun e => dieOf e.1 == d).flatMap fun e => e.2.cmdPins

/-- Pinned translations of a tenant's range (R226, R327): a pinned piece's address holds its space. -/
def Pins.within (p : Pins) (r : VRange) : Nat :=
  if p.1 = r.1 then p.2.1.countP fun g => g.va / 2 ^ 60 == r.2.1 && overlaps (g.va % 2 ^ 39) g.len r.2.2.1 r.2.2.2 else 0

/-- Pinned translations in a range. -/
def State.pinnedIn (s : State) (r : VRange) : Nat :=
  [0, 1, 2, 3].foldl (fun a d => (s.diePins d).foldl (fun a p => a + Pins.within p r) a) 0

/-- The range that a valid range entry serves. -/
def RangeEntry.range (e : RangeEntry) : List VRange :=
  let w := e.w0.toNat
  if bitAt w 0 then [(bits w 15 4, bits w 2 1, e.base.toNat, e.limit.toNat + 1 - e.base.toNat)] else []

/-- An operation goes on until its ranges are idle. -/
def State.startInval (s : State) (m : Message) (rs : List VRange) : State :=
  let r : Running := { id := s.nextId, opc := m.opc, tag := m.tag, qp := m.qp, since := (s.die 4).tick
                       args := s.nextId :: rs.flatMap fun r => [r.1, r.2.1, r.2.2.1, r.2.2.2] }
  let s := rs.foldl State.dropRange s
  ({ s with running := s.running ++ [r] } : State).bump

/-- RNGSET (R322, Table 12.6): an entry of a compute die's set or the hub's is written, and its old and new ranges are invalidated. -/
def execRngset : State → Host.Outcome State Fault Refusal :=
  manage 0x02 6 false (fun m => m.arg 0 ≤ 4 && m.arg 1 < 64 && (rangeFrom 2 4).all fun i => m.arg i < 2 ^ 64) fun m s =>
    let d := m.arg 0
    let w := fun i => BitVec.ofNat 64 (m.arg (2 + i))
    let set := if d = 4 then s.hubRanges else (s.die d).ranges
    let old := FMap.getD set (m.arg 1) ({} : RangeEntry)
    let new : RangeEntry := { w0 := w 0, base := w 1, limit := w 2, disp := w 3 }
    let set := FMap.setD set (m.arg 1) new {}
    let s := if d = 4 then { s with hubRanges := set } else s.modDie d fun x => { x with ranges := set }
    s.startInval m (old.range ++ new.range)

/-- INVAL (R327). -/
def execInval : State → Host.Outcome State Fault Refusal :=
  manage 0x03 4 false (fun m => m.arg 0 < 4096 && m.arg 1 < 4 && m.arg 2 + m.arg 3 ≤ 2 ^ 39) fun m s =>
    s.startInval m [(m.arg 0, m.arg 1, m.arg 2, m.arg 3)]

/-- The message an operation under way came in. -/
def Running.message (r : Running) : Message := { qp := r.qp, opc := r.opc, zero := true, tag := r.tag, args := r.args }

/-- Ranges from their numbers. -/
def rangesOf : List Nat → List VRange
  | a :: b :: c :: d :: rest => (a, b, c, d) :: rangesOf rest
  | _ => []

def Running.ranges (r : Running) : List VRange := rangesOf (r.args.drop 1)

/-- An operation under way replies and is over. -/
def State.finish (s : State) (r : Running) (status : Nat) (nums : List Nat) : State :=
  ({ s with running := s.running.filter fun q => q.id != r.id } : State).reply r.message status nums

/-- INVAL_REPLY (R327): no TLB holds the ranges, and every command that used them has completed; the reply gives the pinned
translations. -/
def execInvalReply (s : State) : Host.Outcome State Fault Refusal :=
  match s.running.find? fun r => r.id == s.focus.id && (r.opc == 2 || r.opc == 3) with
  | none => .next s
  | some r =>
    if r.ranges.all (s.rangeIdle (r.args.getD 0 0)) then
      let s := r.ranges.foldl State.dropRange s
      .next (s.finish r 0 [r.ranges.foldl (fun a v => a + s.pinnedIn v) 0])
    else .next s

/-- The pinned ranges of a tenant on a die: first address, length and translations of each (R327). -/
def State.pinsOf (s : State) (d tenant : Nat) : List Nat :=
  ((s.diePins d).filter fun p => p.1 == tenant).flatMap fun p => [(p.2.1.head?.map (·.va)).getD 0, segsLen p.2.1, p.2.2]

/-- PINQ (R327). -/
def execPinq : State → Host.Outcome State Fault Refusal :=
  manage 0x04 2 false (fun m => m.arg 0 < 4 && m.arg 1 < 4096) fun m s => s.reply m 0 (s.pinsOf (m.arg 0) (m.arg 1))

/-- KEYLOAD (R332): slot, tenant, SHARE, wrapped pair. -/
def execKeyload : State → Host.Outcome State Fault Refusal :=
  manage 0x05 4 false (fun m => m.arg 0 < 1024 && m.arg 1 < 4096 && m.arg 2 < 2) fun m s =>
    if (FMap.get? s.keys (m.arg 0)).isSome then s.reply m 2
    else
      match Config.unwrappedPair (m.arg 3) with
      | none => s.reply m 4
      | some p =>
        let k : KeySlot := { tenant := m.arg 1, share := m.arg 2 == 1, pair := p }
        ({ s with keys := FMap.insert s.keys (m.arg 0) k } : State).reply m 0

/-- KEYDROP (R335): the slot refuses new users at once. -/
def execKeydrop : State → Host.Outcome State Fault Refusal :=
  manage 0x06 1 false (fun m => m.arg 0 < 1024) fun m s =>
    match FMap.get? s.keys (m.arg 0) with
    | none => s.reply m 0
    | some k =>
      let r : Running := { id := s.nextId, opc := 6, tag := m.tag, qp := m.qp, args := [m.arg 0], since := (s.die 4).tick }
      let k := { k with dropping := true }
      ({ s with keys := FMap.insert s.keys (m.arg 0) k, running := s.running ++ [r] } : State).bump

/-- A command resolved an address under a slot (R335). -/
def segsUnder (k : Nat) (l : List Seg) : Bool :=
  l.any fun g => g.key == k && match g.space with | .hbm | .switch _ | .remote _ _ | .wstore _ => true | _ => false

def State.slotUsed (s : State) (k : Nat) : Bool :=
  segsUnder k (s.inbound.flatMap (·.segs)) || s.tiles.any fun e =>
    (e.2.xq.any fun x => segsUnder k (x.reads ++ x.writes ++ x.src.segs ++ x.dst.segs ++ x.list.segs ++ if x.op == .layreg then x.pinned else [])
      || ((x.op == .smalloc) && (SheetAttr.ofWord x.a).key == k))
    || e.2.mq.any fun m => segsUnder k m.segs

/-- The slot's pair is gone from the package and from every switch (R335). -/
def State.zeroise (s : State) (k : Nat) : State :=
  { s with
    keys := FMap.erase s.keys k
    switches := s.switches.map fun w => (w.1, { w.2 with sheets := w.2.sheets.map fun h =>
      (h.1, if h.2.key = k then { h.2 with hasPair := false } else h.2) }) }

/-- KEYDROP_REPLY (R335). -/
def execKeydropReply (s : State) : Host.Outcome State Fault Refusal :=
  match s.running.find? fun r => r.id == s.focus.id && r.opc == 6 with
  | none => .next s
  | some r =>
    let k := r.args.getD 0 0
    if s.slotUsed k then .next s else .next ((s.zeroise k).finish r 0 [])

/-- QUOTA (R331). -/
def execQuota : State → Host.Outcome State Fault Refusal :=
  manage 0x07 3 false (fun m => m.arg 0 < 4096 && m.arg 1 < 8) fun m s =>
    let w := s.switch (m.arg 1)
    let w := { w with quota := FMap.setD w.quota (m.arg 0) (m.arg 2) 0 }
    ({ s with switches := FMap.insert s.switches (m.arg 1) w } : State).reply m 0

/-- QPSET (R336). -/
def execQpset : State → Host.Outcome State Fault Refusal :=
  manage 0x08 4 false (fun m => m.arg 0 < 4096 && m.arg 1 < 4096 && m.arg 2 < 4 && m.arg 3 < 128 && (m.arg 2 != 0 || m.arg 1 == 0)) fun m s =>
    ({ s with pairs := FMap.insert s.pairs (m.arg 0) ⟨m.arg 1, m.arg 2, m.arg 3⟩ } : State).reply m 0

/-- LSEM (11 R282): tag and count; the error bit is clear. -/
def execLsem : State → Host.Outcome State Fault Refusal :=
  manage 0x09 3 false (fun m => m.arg 0 < 4096 && m.arg 1 < 4096 && m.arg 2 < 2 ^ 32) fun m s =>
    (s.setLsem (m.arg 0) { tenant := m.arg 1, count := BitVec.ofNat 32 (m.arg 2) }).reply m 0

/-- STATUS (11 R281). -/
def execStatus : State → Host.Outcome State Fault Refusal :=
  manage 0x0A 1 false (fun m => m.arg 0 < 128) fun m s => s.reply m 0 [(s.queue (m.arg 0)).status]

/-! ### Attestation (R340, R341) -/

/-- Bytes 0 to 127 of the report (Table 12.7). -/
def State.report (s : State) (index nonce : Nat) : List Byte :=
  toBytes 4 0x57415454 ++ toBytes 4 index ++ toBytes 32 nonce ++ (List.range 32).map (Config.imageHash s.boot.running.cells)
    ++ toBytes 4 (Config.imageVersion s.boot.running.cells).toNat ++ toBytes 4 s.boot.rollback ++ toBytes 3 s.nodeId ++ [0]
    ++ (List.range 32).map Config.identityHash ++ List.replicate 12 0

/-- The next index, with the block it burns when it is the block's first (R340). -/
def Boot.nextIndex (b : Boot) : Nat × Boot :=
  if b.inBlock < 1024 then (1024 * (b.burnt - 1) + b.inBlock, { b with inBlock := b.inBlock + 1 })
  else (1024 * b.burnt, { b with burnt := b.burnt + 1, inBlock := 1 })

/-- ATTEST (R341): with every bit burned nothing is signed. -/
def execAttest : State → Host.Outcome State Fault Refusal :=
  manage 0x0B 1 false (fun m => m.arg 0 < 2 ^ 256) fun m s =>
    if s.boot.burnt = 1024 then s.reply m 2
    else
      let (i, b) := s.boot.nextIndex
      let s := { s with boot := b }
      let r := s.report i (m.arg 0)
      s.reply m 0 [] (r ++ Config.signature i r)

/-! ### Package operations (17 Table 17.6) -/

/-- PWRQ: average in mW, PLIMIT, the step of each die, the hottest sensor of each in 0.1 °C. -/
def execPwrq : State → Host.Outcome State Fault Refusal :=
  manage 0x0C 0 false (fun _ => true) fun m s =>
    s.reply m 0 (s.power.average :: s.power.limit :: ((List.range 4).map fun d => (s.die d).clock)
      ++ (List.range 4).map fun d => s.power.sensors.getD d 0)

/-- PWRSET (17 R387). -/
def execPwrset : State → Host.Outcome State Fault Refusal :=
  manage 0x0D 1 false (fun m => 600 ≤ m.arg 0 && m.arg 0 ≤ 2400) fun m s =>
    ({ s with power := { s.power with nextLimit := m.arg 0 } } : State).reply m 0

/-- ERRQ (17 R395): the corrected and uncorrectable errors of a store kind, by the rows of Table 17.7 from 0. -/
def execErrq : State → Host.Outcome State Fault Refusal :=
  manage 0x0E 2 false (fun m => m.arg 0 ≤ 4 && m.arg 1 < 10) fun m s =>
    let n := FMap.getD (s.die (m.arg 0)).errors (m.arg 1) (0, 0)
    (s.modDie (m.arg 0) fun x => { x with errors := FMap.erase x.errors (m.arg 1) }).reply m 0 [n.1, n.2]

/-- FWLOAD: the offset and 48 bytes go to the hub's flash. -/
def execFwload : State → Host.Outcome State Fault Refusal :=
  manage 0x0F 49 true (fun m => (rangeFrom 1 48).all fun i => m.arg i < 256) fun m s =>
    let f := s.boot.flash.write (m.arg 0) ((rangeFrom 1 48).map fun i => (BitVec.ofNat 8 (m.arg i), false))
    ({ s with boot := { s.boot with flash := f } } : State).reply m 0

/-! ### Reset and bring-up (17 R390, R391; 12 R339) -/

/-- What a reset leaves: the state of package reset, with what lies outside the package or does not lose its contents. -/
def State.packageReset (s : State) : State :=
  { State.reset with
    boot := { s.boot with inBlock := 1024, up := false }
    switches := s.switches.map fun w => (w.1, { w.2 with portUp := true, failover := false })
    loopback := s.loopback
    farPorts := s.farPorts
    torusX := s.torusX
    torusY := s.torusY
    torusZ := s.torusZ
    outbox := s.outbox
    inbox := s.inbox
    free := s.free
    nextId := s.nextId }

/-- The boot ROM takes the image in flash when it is signed and not rolled back (12 R339). -/
def Boot.start (b : Boot) : Boot :=
  let ok := Config.imageSigned b.flash.cells && b.rollback ≤ (Config.imageVersion b.flash.cells).toNat
  { b with good := ok, running := b.flash, held := false, inBlock := 1024, up := false }

/-- A step of bring-up that fails is reported on pair 0 (17 R390). -/
def State.reportStep (s : State) (step : Nat) : State := s.send { kind := sReply, dest := 0, nums := [step] }

/-- The package starts on the image in its flash; a check that fails is step 3 (17 Table 17.5). -/
def State.startUp (s : State) : State :=
  let b := s.boot.start
  let u := { s.packageReset with boot := b }
  if b.good then u else u.reportStep 3

/-- PACKAGE_RESET (17 R390): RESETN is deasserted with good supplies and bring-up runs; a number is the step that failed. -/
def execPackageReset (s : State) : Host.Outcome State Fault Refusal :=
  if !s.boot.held then .next s
  else
    match s.focus.args with
    | [] => .next s.startUp
    | step :: _ => .next (State.reportStep { s.packageReset with boot := { s.boot.start with good := false } } step)

/-- RESETN_ASSERT (17 R390): the package is in reset. -/
def execResetnAssert (s : State) : Host.Outcome State Fault Refusal :=
  .next { s.packageReset with boot := { s.boot with held := true, inBlock := 1024 } }

/-- RESET (17 Table 17.6): package reset after the reply. -/
def execReset : State → Host.Outcome State Fault Refusal :=
  manage 0x10 0 true (fun _ => true) fun m s =>
    (s.reply m 0).startUp

/-! ### Registration domains (10 R250) -/

/-- REGSET. -/
def execRegset : State → Host.Outcome State Fault Refusal :=
  manage 0x11 2 false (fun m => m.arg 0 < 64 && (m.arg 1 < 4 || m.arg 1 == 0xFF)) fun m s =>
    let r : Running := { id := s.nextId, opc := 0x11, tag := m.tag, qp := m.qp, args := [], since := (s.die 4).tick }
    let s := s.setDomain (BitVec.ofNat 6 (m.arg 0)) (if m.arg 1 < 4 then some (m.arg 1) else none)
    ({ s with running := s.running ++ [r] } : State).bump

/-- REGSET_REPLY: status 0 once every die is registered, status 3 when one is not 16,777,216 cycles after arrival. -/
def execRegsetReply (s : State) : Host.Outcome State Fault Refusal :=
  match s.running.find? fun r => r.id == s.focus.id && r.opc == 0x11 with
  | none => .next s
  | some r =>
    if s.allRegistered then .next (s.finish r 0 [])
    else if r.since + 16777216 ≤ (s.die 4).tick then .next (s.finish r 3 [])
    else .next s

/-- UNKNOWN_MANAGEMENT_OPC (R338). -/
def execUnknownManagementOpc (s : State) : Host.Outcome State Fault Refusal :=
  let m := Message.ofArgs s.focus.args
  if s.fromManagement m && s.boot.good && (m.opc == 0 || 0x11 < m.opc) then .next (s.reply m 1) else .next s

/-! ### Which message may take effect (R338) -/

/-- The ranges a message names. -/
def Message.ranges (m : Message) (s : State) : List VRange :=
  if m.opc = 3 then [(m.arg 0, m.arg 1, m.arg 2, m.arg 3)]
  else if m.opc = 2 then
    let set := if m.arg 0 = 4 then s.hubRanges else (s.die (m.arg 0)).ranges
    let w := fun i => BitVec.ofNat 64 (m.arg (2 + i))
    (FMap.getD set (m.arg 1) ({} : RangeEntry)).range ++ (({ w0 := w 0, base := w 1, limit := w 2, disp := w 3 } : RangeEntry)).range
  else []

/-- The key slots a message names. -/
def Message.slots (m : Message) : List Nat :=
  if m.opc = 5 || m.opc = 6 then [m.arg 0]
  else if m.opc = 1 then [bits (m.arg 1) 11 2]
  else if m.opc = 2 then [bits (m.arg 2) 30 21]
  else []

/-- Two ranges share an offset. -/
def VRange.meets (a b : VRange) : Bool := a.1 == b.1 && a.2.1 == b.2.1 && overlaps a.2.2.1 a.2.2.2 b.2.2.1 b.2.2.2

/-- An operation under way holds back a later message. -/
def State.holdsBack (s : State) (r : Running) (m : Message) : Bool :=
  match r.opc with
  | 0x11 => m.opc == 0x11
  | 3 => r.ranges.any fun a => (m.ranges s).any fun b => VRange.meets a b
  | 6 => m.slots.contains (r.args.getD 0 0)
  | _ => true

/-- Queue pairs are accepted once bring-up is over; FWLOAD and RESET are answered before, and every message after an image check that
failed gets what R339 gives it (17 Table 17.5; log 9). -/
def State.hears (s : State) (i : Instr) : Bool :=
  s.boot.up || !s.boot.good || match i with | .fwload | .reset => true | _ => false

/-- The first message that waits may take effect. -/
def State.messageReady (s : State) : Bool :=
  match s.messages with
  | j :: _ => s.hears j.instr && !(s.running.any fun r => s.holdsBack r (Message.ofArgs j.focus.args))
  | [] => false

/-! ### RDMA and other packets (R336, R337) -/

/-- NON_ROCE_PACKET: dropped and counted. -/
def execNonRocePacket (s : State) : Host.Outcome State Fault Refusal := .next { s with dropped := s.dropped + 1 }

/-- A request joins those that are served. -/
def State.joinInbound (s : State) (r : Inbound) : State :=
  ({ s with inbound := s.inbound ++ [{ r with since := (s.die r.agent).tick }] } : State).bump

/-- Where a data pair's access lies: none answers a NAK. -/
def State.rdmaPlace (s : State) (qp va len : Nat) (write : Bool) : Option (List Seg) :=
  match FMap.get? s.pairs qp with
  | some p =>
    if p.cls != 2 || !s.boot.good then none
    else
      match s.hubPlace p.tenant (BitVec.ofNat 64 va) len write with
      | some segs => if segs.any fun g => match g.space with | .wstore d => (s.die d).fenced | _ => false then none else some segs
      | none => none
  | none => none

/-- An access of a data pair begins: none of it is a NAK, an empty one is answered, another joins the requests that are served (R337; 08
R190). -/
def State.takeHost (s : State) (qp va len : Nat) (write : Bool) (bytes : List (Byte × Bool)) : State :=
  match s.rdmaPlace qp va len write with
  | none => s.answerHost qp 3 []
  | some segs => if len = 0 then s.answerHost qp 0 [] else s.joinInbound { id := s.nextId, node := qp, host := true, segs := segs, write := write, bytes := bytes }

/-- RDMA_READ (R337): pair, address and length; the answer holds the bytes and which of them are poisoned. -/
def execRdmaRead (s : State) : Host.Outcome State Fault Refusal :=
  let arg := fun i => s.focus.args.getD i 0
  .next (s.takeHost (arg 0) (arg 1) (arg 2) false [])

/-- RDMA_WRITE (R337): pair, address and bytes; acknowledged once every byte is performed. -/
def execRdmaWrite (s : State) : Host.Outcome State Fault Refusal :=
  let arg := fun i => s.focus.args.getD i 0
  let bytes := (s.focus.args.drop 2).map fun b => (BitVec.ofNat 8 b, false)
  .next (s.takeHost (arg 0) (arg 1) bytes.length true bytes)

/-! ### Requests of other packages (R334) -/

/-- Where a remote request lies: under the package's own slot of the number it carries, or in a tile its tenant may reach. -/
def State.servedAt (s : State) (tenant slot rsp inner len : Nat) : Option Seg :=
  match decodeInner rsp inner with
  | some g =>
    if !g.fits len then none
    else
      match g with
      | .hbm off => if s.keyUsable slot tenant then some { va := off, space := .hbm, off := off, len := len, key := slot } else none
      | .wstore d off => if s.keyUsable slot tenant && !(s.die d).fenced then some { va := off, space := .wstore d, off := off, len := len, key := slot } else none
      | .window false _ _ t kind off =>
        if (tenant = 0 || (s.tile t).owner == some tenant) && !(s.die (dieOf t)).fenced then some { va := off, space := kindSpace kind t, off := off, len := len }
        else none
      | _ => none
  | none => none

/-- A request comes: one that is refused answers UNREACH, another joins those that are served. -/
def State.takeInbound (s : State) (node tenant slot rsp inner : Nat) (write : Bool) (len : Nat) (bytes : List (Byte × Bool)) : State :=
  match s.servedAt tenant slot rsp inner len with
  | none => s.answerInbound node 3 []
  | some g =>
    if len = 0 then s.answerInbound node 0 []
    else s.joinInbound { id := s.nextId, node := node, segs := [g], write := write, bytes := bytes }

/-- What a request moves in this cycle: all of its line, or the line's first access part (08 R190; log 11); a read ends with a 32-byte unit
of optimiser state that a BURNISH writes (07 R168). -/
def State.inboundPiece (s : State) (r : Inbound) : Seg :=
  let g := r.piece
  let n := if s.maybe 4 r.id then min g.len (max 1 (unitAt g.space g.off g.len)) else g.len
  { g with len := if r.write then n else s.wholeUnit [g] 0 n g.len }

/-- A request moves in this cycle: it does not wait, its banks were granted, its group is free (08 R193; 07 R167). -/
def State.inboundGoes (s : State) (r : Inbound) : Bool :=
  let g := s.inboundPiece r
  s.turn.val == r.agent && !s.inboundWaits r && ((segBanks [g]).isEmpty || r.granted) && s.hasBanks (segBanks [g]) && s.groupsFree [g]

/-- The next piece of a request is moved; the last one answers it. -/
def State.serveInbound (s : State) (r : Inbound) : State :=
  let g := s.inboundPiece r
  let got := if r.write then [] else s.readSeg g 0 g.len
  let s := ((if r.write then s.writeSeg g 0 ((r.bytes.drop r.done).take g.len) else s).noteAccess 0 [g]).useGroups [g]
  let q := { r with done := r.done + g.len, granted := false, bytes := r.bytes ++ got }
  let q := { q with since := (s.die q.agent).tick }
  if r.total ≤ q.done then
    ({ s with inbound := s.inbound.filter fun a => a.id != r.id } : State).answer r 0 (if r.write then [] else q.bytes)
  else { s with inbound := s.inbound.map fun a => if a.id = r.id then q else a }

/-- REMOTE_REQUEST_ARRIVAL (R334): node, tenant, key slot, RSP, INNER, 1 for a write, length, and a write's bytes, 256 more for a poisoned
one. Without arguments a request that has come moves its next piece, when it may. -/
def execRemoteRequestArrival (s : State) : Host.Outcome State Fault Refusal :=
  match s.focus.args with
  | [] =>
    match s.inbound.find? fun r => r.id == s.focus.id with
    | some r => .next (if s.inboundGoes r then s.serveInbound r else s)
    | none => .next s
  | node :: _ =>
    let arg := fun i => s.focus.args.getD i 0
    let bytes := (s.focus.args.drop 7).map fun b => ((BitVec.ofNat 8 b : Byte), bitAt b 8)
    let write := arg 5 != 0
    .next (s.takeInbound node (arg 1) (arg 2) (arg 3) (arg 4) write (if write then bytes.length else arg 6) (if write then bytes else []))

/-! ### Sheet tables (09 R238) -/

/-- What another package stored in a live sheet of a generation: an offset, then the bytes, 256 more for a poisoned one (log 34). -/
def State.foreignStore (s : State) (w n gen : Nat) (l : List Nat) : State :=
  let h := s.sheet w n
  let bytes := (l.drop 1).map fun b => ((BitVec.ofNat 8 b : Byte), bitAt b 8)
  let off := l.headD 0
  if h.live && h.gen.toNat == gen && !(s.switch w).lost && off + bytes.length ≤ sheetSize then
    s.writeSeg { va := off, space := .switch w, off := n * sheetSize + off, len := bytes.length, key := h.key } 0 bytes
  else s

/-- SHEET_TABLE_UPDATE (09 R238): a switch tells of an entry that another package's SMALLOC or SMFREE changed: switch, sheet, generation,
1 when live, tenant, ORD, PERM, key slot, 1 when mirrored, the switch its handle names; or 2 and what another package stored there. The
switch's number alone tells of one restored or reset, which keeps the handles that its other half serves (09 R244, R246; log 34). -/
def execSheetTableUpdate (s : State) : Host.Outcome State Fault Refusal :=
  let arg := fun i => s.focus.args.getD i 0
  match s.focus.args with
  | [w] =>
    let old := s.switch w
    let s := if old.lost || 8 ≤ w then s else s.loseSwitch w
    let kept := (s.switch w).sheets.filter fun e => e.2.live && e.2.mir && e.2.primary == w && e.2.alone == some ((w + 4) % 8)
    let x : Switch := { lossGen := old.lossGen, portUp := old.portUp, sheets := kept, failover := (s.switch w).failover }
    if w < 8 then .next { s with switches := FMap.insert s.switches w x } else .next s
  | w :: n :: gen :: live :: rest =>
    if 8 ≤ w || sheetCount ≤ n || gen = 0 || 65535 < gen then .next s
    else if live = 2 then .next (s.foreignStore w n gen rest)
    else
      let mir := rest.getD 4 0 == 1
      let h : Sheet :=
        if live = 1 then
          { gen := BitVec.ofNat 16 gen, live := true, tenant := rest.getD 0 0, ord := rest.getD 1 0, perm := rest.getD 2 0, key := rest.getD 3 0
            mir := mir, primary := if mir then arg 9 else w, pair := s.pairOf (rest.getD 3 0), hasPair := true
            alone := if mir && (s.switch ((w + 4) % 8)).lost then some w else none }
        else { gen := BitVec.ofNat 16 gen }
      .next (s.modSheet w n fun _ => h)
  | _ => .next s

/-! ### Errors and patrols (17 R393 to R395) -/

/-- Poison a unit. -/
def Mem.poisonUnit (m : Mem) (a n : Nat) : Mem :=
  { m with poison := (rangeFrom a n).foldl (fun p i => FMap.insert p i ()) m.poison }

/-- Poison some bytes on their way. -/
def poisonCells (l : List (Byte × Bool)) (i n : Nat) : List (Byte × Bool) :=
  l.take i ++ ((l.drop i).take n).map (fun b => (b.1, true)) ++ l.drop (i + n)
def Beat.poisonBytes (b : Beat) (i n : Nat) : Beat :=
  { b with poison := (List.range b.poison.length).map fun j => (i ≤ j && j < i + n) || b.poison.getD j false }

/-- An uncorrectable error in a store of a tile, by the row of Table 17.7: an 8-byte unit of the scratchpad or, past those, of the OM; an
accumulator entry; an 8-byte unit of the code store or, past those, of the dictionary store. -/
def Tile.upset (x : Tile) (row n : Nat) : Option Tile :=
  let pads := scratchLimit / 8
  match row with
  | 0 =>
    if n < pads then some { x with scratch := x.scratch.poisonUnit (8 * n) 8 }
    else if n < pads + kindLimit 2 / 8 then some { x with om := x.om.poisonUnit (8 * (n - pads)) 8 } else none
  | 1 => if n < 131072 then some { x with acc := FMap.setD x.acc n { FMap.getD x.acc n ({} : AccEntry) with poison := true } {} } else none
  | 2 =>
    if n < 32768 then some { x with codeBad := (rangeFrom (4 * n) 4).foldl (fun m i => FMap.insert m i ()) x.codeBad }
    else if n < 32768 + 6 * 8192 then some { x with dictBad := FMap.insert x.dictBad ((n - 32768) / 6) () } else none
  | _ => none

/-- An uncorrectable error in a register file: a scalar, and past those a lane of a vector register, and past those a mask bit. -/
def Ctx.upset (k : Ctx) (n : Nat) : Option Ctx :=
  let l := n - 64
  let b := n - 4160
  if n < 64 then some (k.setSreg n { k.sreg n with poison := true })
  else if n < 4160 then some (k.setVreg (l / 64) (setAt (k.vreg (l / 64)) (l % 64) { ((k.vreg (l / 64)).lane (l % 64)) with poison := true }))
  else if n < 5184 then some (k.setMreg (b / 64) { k.mreg (b / 64) with poison := (k.mreg (b / 64)).poison ||| (1#64 <<< (b % 64)) })
  else none

/-- An uncorrectable error in what a request carries: its data on the way out, what a far acquire brings back. -/
def MeshReq.upset (r : MeshReq) : MeshReq :=
  if r.backAt.isNone then { r with data := { r.data with poison := true } } else { r with got := (r.got.1, true, r.got.2.2) }

/-- A value that a request brings back is on its way: it is not there before its nominal cycle. -/
def Landing.returning (l : Landing) (id : Nat) : Bool := l.id == id && l.nominal.isSome && !l.waits

/-- An uncorrectable error in that value. -/
def Landing.upset (l : Landing) : Landing :=
  { l with dest := match l.dest with | .scalar d v => .scalar d { v with poison := true } | d => d }

/-- An uncorrectable error in 8 bytes on mesh and die links (10 R277): of a timed beat, of a request or of what it brings back, of what a
command has fetched. -/
def State.upsetLink (s : State) (t c id n : Nat) : Option State :=
  let x := s.tile t
  if s.air.any fun f => f.id == id && n < 8 then
    some { s with air := s.air.map fun f => if f.id = id then { f with beat := f.beat.poisonBytes (8 * n) 8 } else f }
  else if s.mesh.any fun r => r.id == id then
    some { s with mesh := s.mesh.map fun r => if r.id = id then r.upset else r }
  else if (x.ctx c).inflight.any fun l => l.returning id then
    some (s.modCtx t c fun k => { k with inflight := k.inflight.map fun l => if l.returning id then l.upset else l })
  else
    match x.findX id with
    | some c => if 8 * n < c.buf.length then some (s.setTile t (x.setX { c with buf := poisonCells c.buf (8 * n) 8 })) else none
    | none => none

/-- What an uncorrectable error leaves, in a place of the store of a row of Table 17.7, the die that counts it, and the address or tile
that its notice names; none where there is no such place (13 R356; log 41). -/
def State.upset (s : State) (row n : Nat) : Option (State × Nat × Nat) :=
  let d := s.focus.die
  let t := s.focus.tile
  let c := s.focus.ctx
  let atTile := fun (u : State) => (u, dieOf t, t)
  match row with
  | 6 =>
    if wstoreLimit ≤ 32 * n || 4 ≤ d || (s.die d).fenced then none
    else some (s.modDie d fun x => { x with wstore := x.wstore.poisonUnit (32 * n) 32 }, d, d * 2 ^ 32 + 32 * n)
  | 7 => if hbmLimit ≤ 64 * n then none else some ({ s.hbmUsed 0 with hbm := s.hbm.poisonUnit (64 * n) 64 }, stackDie (64 * n), 64 * n)
  | 3 => if (s.tile t).live c then ((s.ctx t c).upset n).map fun k => atTile (s.setCtx t c k) else none
  | 8 => if t < 192 then (s.upsetLink t c s.focus.id n).map atTile else none
  | 9 =>
    if s.air.any fun f => f.id == s.focus.id && 4 ≤ f.port then
      some (atTile { s with air := s.air.map fun f => if f.id = s.focus.id then { f with beat := f.beat.poisonBytes 0 64 } else f })
    else none
  | _ => if t < 192 && !(s.die (dieOf t)).fenced then ((s.tile t).upset row n).map fun x => atTile (s.setTile t x) else none

/-- PATROL_REWRITE (R394), and every other access that meets an error of ECC (R393): the row of Table 17.7, the place, and what is met there:
nothing, 1 a corrected error, 2 an uncorrectable one. -/
def execPatrolRewrite (s : State) : Host.Outcome State Fault Refusal :=
  let row := s.focus.args.getD 0 0
  let err := s.focus.args.getD 2 0
  match s.upset row (s.focus.args.getD 1 0) with
  | none => .next s
  | some (u, d, addr) =>
    let s := if row = 7 then s.hbmUsed 0 else s
    .next (if err = 1 then s.countError d row false addr else if err = 2 then u.countError d row true addr else s)

/-! ### The power arbiter (17 R385 to R389; 10 R255) -/

/-- A die is protected: one of its contexts is inside a fixed-time region or paused on ALIGN (10 R255). -/
def State.clockGuarded (s : State) (d : Nat) : Bool :=
  s.tiles.any fun e => dieOf e.1 == d && e.2.ctxs.any fun k => k.2.inFtr || k.2.st == .paused

/-- The step a die is at or on its way to. -/
def Die.step (x : Die) : Nat := match x.clockTo with | some p => p.1 | none => x.clock

/-- Order a change of step: complete in 200 cycles (R385). -/
def State.orderStep (s : State) (d step : Nat) : State := s.modDie d fun x => { x with clockTo := some (step, x.tick + 200) }

/-- Dies that may be lowered. -/
def State.lowerable (s : State) : List Nat :=
  (List.range 4).filter fun d => (s.die d).step < 3 && !s.clockGuarded d && !(s.die d).fenced

/-- Lower some dies by one step. -/
def State.lowerAll (s : State) (ds : List Nat) : State := ds.foldl (fun s d => s.orderStep d ((s.die d).step + 1)) s

/-- What a window's average asks for (R387): its excess over the limit in mW. -/
def stretchFor (excess : Nat) : Nat := min 65535 (4096 * ceilDiv excess 25000)

/-- A window ends with an average and the hottest sensors of the dies (R387, R389). -/
def State.windowEnd (s : State) (avg : Nat) (temps : List Nat) : State :=
  let p := s.power
  let hiAvg := p.limit * 1000 < avg
  let below := if avg * 100 < p.limit * 1000 * 95 then p.below + 1 else 0
  let ds := s.lowerable
  let hot := ds.filter fun d => 950 ≤ temps.getD d 0
  let raise := below == 8
  let s := { s with power := { p with limit := p.nextLimit, average := avg, below := if raise then 0 else below, sensors := temps } }
  let s :=
    if hiAvg then (if ds.isEmpty then s.requestStretch (stretchFor (avg - p.limit * 1000)) else s.lowerAll ds)
    else if raise then
      ((List.range 4).filter fun d => (s.die d).step != 0 && temps.getD d 0 < 950).foldl (fun s d => s.orderStep d ((s.die d).step - 1)) s
    else s
  if hiAvg then s else s.lowerAll hot

/-- POWER_WINDOW_END (R387, R389): every 32,768 cycles of the hub; what the arbiter measures is free (log 12). -/
def execPowerWindowEnd (s : State) : Host.Outcome State Fault Refusal :=
  if (s.die 4).tick % 32768 != 0 || (s.die 4).tick = 0 then .next s
  else
    let temps := (List.range 4).map fun i => Config.freeNat (s.free + 1 + i)
    let s' := ({ s with free := s.free + 5 } : State).windowEnd (Config.freeNat s.free) temps
    .next (((List.range 4).filter fun d => 1050 ≤ temps.getD d 0).foldl (fun s d => s.afterwards .dieFence { die := d }) s')

/-- CLOCK_STEP_CHANGE (R385): a change ordered 200 cycles ago is complete; none lowers a die that is protected by then (10 R255). -/
def execClockStepChange (s : State) : Host.Outcome State Fault Refusal :=
  let d := s.focus.die
  match (s.die d).clockTo with
  | none => .next s
  | some (step, due) =>
    if due ≤ (s.die d).tick then
      .next (s.modDie d fun x => { x with clock := if x.clock < step && s.clockGuarded d then x.clock else step, clockTo := none })
    else .next s

end Sys2Proof.Machine
end

