-- ==== Sys2Proof/Machine/Agenda.lean ====
section
/-! DEFINITION. Which events a cycle holds, in the order they are taken (log 4). Every event tests its own conditions again when it is
taken; what the manual lets happen at a time of its own is listed when a free value says so (log 3). -/

namespace Sys2Proof.Machine

/-- Events about a tile's contexts, commands, and about a die. -/
def jobCtx (i : Instr) (t c : Nat) (args : List Nat := []) : Job := ⟨i, { die := dieOf t, tile := t, ctx := c, args := args }⟩
def jobCmd (i : Instr) (t : Nat) (h : CmdHead) (args : List Nat := []) : Job := ⟨i, { die := dieOf t, tile := t, ctx := h.ctx, id := h.id, args := args }⟩
def jobDie (i : Instr) (d : Nat) : Job := ⟨i, { die := d }⟩
def jobId (i : Instr) (n : Nat) (args : List Nat := []) : Job := ⟨i, { id := n, args := args }⟩

/-- A job when a condition holds. -/
def when' (c : Bool) (j : Job) : List Job := if c then [j] else []

/-! ### A tile's events at the start of a cycle -/

/-- Requests to take contexts off the tile (13 R360 to R362). -/
def Tile.preemptJobs (x : Tile) (t : Nat) : List Job :=
  x.ctxs.flatMap fun e =>
    match e.2.preempt with
    | none => []
    | some p =>
      when' (!p.live) (jobCtx .preemptionRequest t e.1) ++ [jobCtx .lazyPreemption t e.1]
        ++ when' (!p.rolling) (jobCtx .urgentPreemption t e.1)

/-- The engines: rows, beats, fabric actions, and what completes. -/
def State.engineJobs (s : State) (t : Nat) : List Job :=
  let x := s.tile t
  let ms := x.mq.filter fun m => m.head.st == .running
  let xs := x.xq.filter fun m => m.head.st == .running
  (ms.map fun m => jobCmd .engineStep t m.head) ++ (ms.map fun m => jobCmd .matrixCommandCompletion t m.head)
    ++ (xs.flatMap fun m =>
      when' (if m.moves then x.beat == some m.head.id || x.fetch == some m.head.id else m.burnishes || (!m.stopped && s.maybe 4 m.head.id))
        (jobCmd .engineStep t m.head))
    ++ (xs.flatMap fun m =>
      when' (m.unanswered (s.tickOf t)) (jobCmd .remoteRequestTimeout t m.head)
        ++ when' (!m.burnishes && s.maybe 3 m.head.id) (jobCmd .copyCommandCompletion t m.head))
    ++ (x.fq.map fun f => jobCmd .engineStep t f.head) ++ (x.fq.map fun f => jobCmd .fabricCommandCompletion t f.head)
    ++ (x.xq.filter XCmd.burnishes).flatMap fun m =>
      when' (m.head.st == .running && (m.burnishDue (s.tickOf t) || s.maybe 3 m.head.id)) (jobCmd .burnishCompletion t m.head)

/-- A landing is a control-register write. -/
def Landing.isCsr (l : Landing) : Bool := match l.dest with | .csr _ _ => true | _ => false

/-- The landing of a context's result. -/
def jobLand (i : Instr) (t c : Nat) (l : Landing) : Job := ⟨i, { die := dieOf t, tile := t, ctx := c, id := l.id }⟩

/-- Control-register writes that take effect: before the flags that land in their cycle, those of engines among them (05 R131, 03 R83). -/
def State.csrJobs (s : State) (t : Nat) : List Job :=
  (s.tile t).ctxs.flatMap fun e => (e.2.inflight.filter fun l => l.isCsr && l.due ≤ s.tickOf t).map (jobLand .resultLanding t e.1)

/-- What lands besides, late values before those of the cycle (05 R118, 02 R38). -/
def State.landingJobs (s : State) (t : Nat) : List Job :=
  let now := s.tickOf t
  (s.tile t).ctxs.flatMap fun e =>
    let late := e.2.inflight.filter fun l => l.free && l.due ≤ now
    let due := e.2.inflight.filter fun l => !l.free && !l.waits && l.due ≤ now && !l.isCsr
    late.map (jobLand .lateResultLanding t e.1) ++ due.map (jobLand .resultLanding t e.1)

/-- Far acquires that are back, and walks that end (09 R235, 12 R325). -/
def State.replyJobs (s : State) (t : Nat) : List Job :=
  (s.tile t).ctxs.flatMap fun e =>
    (match e.2.farAcq with
      | some q => when' (q.back.isNone && ((s.mesh.any fun r => r.id == q.id) || s.maybe 6 q.id))
          ⟨.farAcquireReply, { die := dieOf t, tile := t, ctx := e.1, id := q.id }⟩
      | none => [])
    ++ e.2.walks.flatMap fun w => when' (w.res.isNone && s.maybe 5 (1024 * (4 * t + e.1) + w.off / 4096)) (jobCtx .translationWalkComplete t e.1 [w.space, w.off])

/-- What becomes of the tile's contexts apart from issue. -/
def State.ctxJobs (s : State) (t : Nat) : List Job :=
  (s.tile t).ctxs.flatMap fun e =>
    let k := e.2
    let n := 4 * t + e.1
    when' (k.st == .ending) (jobCtx .contextEnd t e.1) ++ when' (!k.absent.isEmpty) (jobCtx .lazyRegisterFill t e.1)
      ++ when' (!k.pendingFaults.isEmpty) (jobCtx .engineFaultTaken t e.1)
      ++ (match k.preempt with | some p => when' p.urgent (jobCtx .urgentPreemption t e.1) | none => [])
      ++ when' ((k.st == .saving || k.preempt.isSome) && s.maybe 7 n) (jobCtx .contextSave t e.1)

/-- Commands that begin without a wait in this cycle (04 R100, 09 R215, 07 R177). -/
def Tile.beginJobs (x : Tile) (t : Nat) (args : List Nat) : List Job :=
  let ms := (x.mq.filter fun m => m.head.st == .queued).map fun m => jobCmd .matrixCommandBegin t m.head args
  let xs := (x.xq.filter fun m => m.head.st == .queued).map fun m =>
    jobCmd (if m.burnishes then .burnishBegin else .copyCommandBegin) t m.head args
  (ms ++ xs).mergeSort fun a b => a.focus.id ≤ b.focus.id

/-- Watchdogs that are due, after what may be an engine fault of the cycle (13 R346). -/
def Tile.watchJobs (x : Tile) (t : Nat) : List Job := x.ctxs.flatMap fun e => when' e.2.watchOver (jobCtx .progressWatchdog t e.1)

/-- All of it, tile by tile. -/
def State.tileJobs (s : State) (t : Nat) : List Job :=
  s.csrJobs t ++ (s.tile t).preemptJobs t ++ s.engineJobs t ++ s.landingJobs t ++ s.replyJobs t ++ s.ctxJobs t ++ (s.tile t).beginJobs t []
    ++ (s.tile t).watchJobs t

/-! ### A die's events -/

/-- Requests of other packages that an agent serves: those that were granted their banks, others at a time of their own (12 R334). -/
def State.inboundJobs (s : State) (n : Nat) : List Job :=
  s.inbound.flatMap fun r =>
    when' (r.agent == n && if (segBanks [r.piece]).isEmpty then s.maybe 6 r.id else r.granted) ⟨.remoteRequestArrival, { die := n, id := r.id }⟩

/-- The tiles of a die that hold anything. -/
def State.tilesOf (s : State) (d : Nat) : List Nat := (s.tiles.filter fun e => dieOf e.1 == d).map (·.1)

/-- Restores of saved contexts that wait for nothing but their time (13 R365). -/
def State.restoreJobs (s : State) (d : Nat) : List Job :=
  s.saved.flatMap fun v => when' (dieOf v.back == d && s.maybe 8 v.owner) ⟨.contextRestore, { die := d, tile := v.back, id := v.owner }⟩

/-- The start of a cycle of a compute die. -/
def State.dieJobs (s : State) (d : Nat) : List Job :=
  let now := (s.die d).tick
  when' (now % 1024 == 0) (jobDie .beaconSend d) ++ when' (s.die d).clockTo.isSome (jobDie .clockStepChange d)
    ++ (s.scrubs.flatMap fun e => when' (dieOf e.1 == d && e.2.1 ≤ now) ⟨.scrub, { die := d, tile := e.1 }⟩)
    ++ (s.air.flatMap fun f => when' (f.die == d && f.due ≤ now) ⟨.beatArrival, { die := d, tile := f.tile, id := f.id }⟩)
    ++ s.inboundJobs d ++ (s.tilesOf d).flatMap s.tileJobs ++ s.restoreJobs d
    ++ when' (!(s.die d).waiting.isEmpty && (s.die d).retestAt ≤ now) (jobDie .faultQueueRetest d)

/-! ### The hub's events -/

/-- A context that the hub may take off its tile for a waiting launch of a higher class of its tenant (13 R360). -/
def State.preemptAsks (s : State) : List Job :=
  s.launches.flatMap fun l =>
    if !l.2.unplaced then []
    else
      s.tiles.flatMap fun e => e.2.ctxs.flatMap fun k =>
        let now := s.tickOf e.1
        when' (k.2.tenant.toNat == l.2.tenant && k.2.prio.toNat < l.2.queue / 16 && k.2.preempt.isNone && s.maybe 12 (8 * l.1 + 4 * e.1 + k.1 + 1))
          (jobCtx .preemptionRequest e.1 k.1 [if l.2.queue / 16 = 7 then 1 else 0, now + 1 + Config.freeFor s.free 0 % 1024])

/-- Launches: heads, firing, instances, members (11 R281 to R290). -/
def State.launchJobs (s : State) : List Job :=
  (s.queues.flatMap fun q => when' (!q.2.recs.isEmpty) (jobId .launchHeadCheck q.1)) ++ [jobId .launchFire 0]
    ++ (s.launches.flatMap fun l =>
      if !l.2.unplaced then []
      else
        ((List.range 4).flatMap fun d => when' (s.maybe 10 (4 * l.1 + d)) ⟨.instanceStart, { die := d, id := l.1 }⟩)
          ++ l.2.insts.flatMap fun i => when' (!i.2.toPlace.isEmpty && s.maybe 11 i.1) (jobId .memberPlace l.1 [i.1]))
    ++ s.preemptAsks

/-- Messages: the first that may take effect, and the replies due (12 R338). -/
def State.replyDue (s : State) (r : Running) : List Job :=
  when' (s.maybe 9 r.id) (jobId (match r.opc with | 0x11 => .regsetReply | 6 => .keydropReply | _ => .invalReply) r.id)

/-- A message is taken off the list when it may take effect. -/
def State.messageJobs (s : State) : List Job := (if s.messageReady then s.messages.take 1 else []) ++ s.running.flatMap s.replyDue

/-- After a fence: the master's work, the key die's place (11 R292, 13 R370). -/
def State.fenceJobs (s : State) : List Job :=
  ((List.range 4).flatMap fun d => when' (!(s.die d).fenced && s.fenceDue d) (jobDie .dieFence d))
    ++ when' ((List.range 4).any (fun d => (s.die d).fenced) && s.maybe 13 0) (jobId .masterElection 0)
    ++ when' ((match s.keyDie with | some k => (s.die k).fenced | none => false) && s.maybe 13 1) (jobId .keyDieRedesignation 0)

/-- Compaction under way, or one that the distributor chooses (11 R291). -/
def State.compactJobs (s : State) : List Job :=
  when' (s.maybe 12 0) ⟨.compaction, { tile := Config.freeFor s.free 1 % 192, args := [Config.freeFor s.free 2 % 192] }⟩

/-- The start of a cycle of the hub. -/
def State.hubJobs (s : State) : List Job :=
  when' ((s.die 4).tick % 1024 == 0) (jobDie .beaconSend 4) ++ when' ((s.die 4).tick % 32768 == 0) (jobDie .powerWindowEnd 4)
    ++ when' (s.power.held != 0 && ((s.die 4).tick % 32768 == 32767 || s.maybe 15 0)) (jobId .stretchAnnounce 0) ++ s.messageJobs ++ s.inboundJobs 4 ++ s.launchJobs ++ s.compactJobs ++ s.fenceJobs
    ++ s.switches.flatMap fun w => when' (w.2.failover && s.maybe 14 w.1) (jobId .mirrorFailoverComplete w.1)

/-! ### A cycle -/

/-- An agent that stands still: a fenced die, or the package held in reset. -/
def State.still (s : State) (n : Nat) : Bool := (s.die n).fenced || s.boot.held

/-- The events at the start of a cycle of the agent in turn. -/
def State.startEvents (s : State) : List Job := if s.still s.turn.val then [] else if s.turn.val < 4 then s.dieJobs s.turn.val else s.hubJobs

/-- Traps taken and waits made in the later half of a cycle, in the order of acceptance (13 R345, 11 R299). -/
def State.lateJobs (s : State) (t : Nat) : List Job :=
  ((s.tile t).ctxs.flatMap fun e => when' (e.2.st == .trapping) (jobCtx .trapEntry t e.1)) ++ (s.tile t).beginJobs t [1]

/-- The events after the issue of a cycle. -/
def State.lateEvents (s : State) : List Job :=
  if s.still s.turn.val then []
  else
    let now := (s.die s.turn.val).tick
    (s.tilesOf s.turn.val).flatMap s.lateJobs
      ++ (s.beacons.filter fun b => b.dest == s.turn.val && b.due ≤ now).map (fun _ => jobDie .beaconReceive s.turn.val)
      ++ when' (s.parentSilent s.turn.val) (jobDie .parentBeaconTimeout s.turn.val)

/-! ### Outside inputs (log 5) -/

/-- Where an input goes: a message joins those that wait, another is taken, and what the outside cannot do is dropped. -/
inductive InputKind where
  | message | event | none
  deriving DecidableEq, Repr

/-- The kind of an input. -/
def inputKind (i : Instr) : InputKind :=
  match i with
  | .tenset | .rngset | .inval | .pinq | .keyload | .keydrop | .quota | .qpset | .lsem | .status | .attest | .pwrq | .pwrset | .errq
  | .fwload | .reset | .regset | .unknownManagementOpc => .message
  | .contextLost | .launchRecordPost | .beaconReceive | .beatArrival | .stretchAnnounce | .dieFence | .linkDown | .linkTraining | .flitReplay
  | .remoteRequestArrival | .switchLossDeclared | .sheetTableUpdate | .patrolRewrite | .packageReset | .nonRocePacket | .rdmaRead | .rdmaWrite
  | .resetnAssert => .event
  | _ => .none

/-- While the package is held in reset only RESETN is heard. -/
def heardInReset (i : Instr) : Bool :=
  match i with
  | .packageReset | .resetnAssert => true
  | _ => false

/-- The first input is taken: a message waits its turn, an event is the cycle's first. -/
def State.takeInput (s : State) : State × List Job :=
  match s.inbox with
  | [] => (s, [])
  | j :: rest =>
    let s := { s with inbox := rest }
    if s.boot.held && !heardInReset j.instr then (s, [])
    else
      match (inputKind j.instr : InputKind) with
      | .message => ({ s with messages := s.messages ++ [j] }, [])
      | .event => (s, [j])
      | .none => (s, [])

/-- The messages that the agenda takes leave their list. -/
def State.takeMessage (s : State) : State := if s.turn.val == 4 && !s.still 4 && s.messageReady then { s with messages := s.messages.tail } else s

/-- Bring-up is over when every die is registered (17 Table 17.5). -/
def State.bringUp (s : State) : State := if s.allRegistered && !s.boot.up then { s with boot := { s.boot with up := true } } else s

/-- The next clock edge: of the agent in turn; then who goes next, an outside input if one is taken now, and what starts the
cycle. -/
def State.nextCycle (s : State) : State :=
  let s := if s.still s.turn.val then s else ((s.forgetHeard s.turn.val).clockDie s.turn.val).bringUp
  let s := s.nextTurn
  let (now, s) := if s.inbox.isEmpty then (false, s) else s.flip
  let (s, first) := if now then s.takeInput else (s, [])
  { s.takeMessage with stage := .grant, agenda := first ++ s.startEvents }

/-- The grants for the next cycle, and the mesh in this one. -/
def State.grantCycle (s : State) : State :=
  let s := if s.still s.turn.val || 4 ≤ s.turn.val then s else (s.grants s.turn.val).meshCycle s.turn.val
  { s with stage := .issue 0 }

/-- The end of a cycle: what its issue has made known is granted. -/
def State.lastGrants (s : State) : State :=
  { if s.still s.turn.val || 4 ≤ s.turn.val then s else s.lateGrants s.turn.val with stage := .clock }

end Sys2Proof.Machine
end

