-- ==== Sys2Proof/Machine/Scalar.lean ====
section
/-! DEFINITION. The S-slot forms (05): results and latencies of Table 5.2, the divide, saturating and bit-field rules, predicate
forms, and the control-register forms over the register map of Csr.lean. -/

namespace Sys2Proof.Machine

/-! ### Results of Table 5.2 -/

/-- Shift and rotate amounts use the low six bits of b (R122). -/
def shAmt (b : Word) : Nat := b.toNat % 64

def resMulh (a b : Int) : Word := BitVec.ofInt 64 (a * b / 2 ^ 64)

/-- The divide rule (R123): quotient and remainder. -/
def divRule (signed : Bool) (a b : Word) : Word × Word :=
  if b = 0 then (BitVec.allOnes 64, a)
  else if signed then
    if a.toInt = -(2 ^ 63) ∧ b.toInt = -1 then (BitVec.ofInt 64 (-(2 ^ 63)), 0)
    else
      let q := a.toInt.tdiv b.toInt
      (BitVec.ofInt 64 q, BitVec.ofInt 64 (a.toInt - b.toInt * q))
  else (BitVec.ofNat 64 (a.toNat / b.toNat), BitVec.ofNat 64 (a.toNat % b.toNat))

/-- The saturating rule (R124): the result and whether the clamp acted. -/
def satRule (signed sub : Bool) (a b : Word) : Word × Bool :=
  let x : Int := if signed then a.toInt else a.toNat
  let y : Int := if signed then b.toInt else b.toNat
  let (z, c) := satRange (if sub then x - y else x + y) (if signed then -(2 ^ 63) else 0)
    (if signed then 2 ^ 63 - 1 else 2 ^ 64 - 1)
  (BitVec.ofInt 64 z, c)

/-- The field descriptor of EXTR and INSR (R125): low end and top end. -/
def fieldEnds (b : Word) : Nat × Nat :=
  let lo := bits b.toNat 5 0
  (lo, min (lo + bits b.toNat 13 8) 63)

/-- EXTR (R125). -/
def resExtr (signed : Bool) (a b : Word) : Word :=
  let (lo, hi) := fieldEnds b
  let x := bits a.toNat hi lo
  if signed then BitVec.ofInt 64 (signExt x (hi - lo + 1)) else BitVec.ofNat 64 x

/-- INSR (R125). -/
def resInsr (old a b : Word) : Word :=
  let (lo, hi) := fieldEnds b
  let m : Word := BitVec.ofNat 64 ((2 ^ (hi - lo + 1) - 1) * 2 ^ lo)
  (old &&& ~~~m) ||| ((a <<< lo) &&& m)

def resClz (a : Word) : Word := BitVec.ofNat 64 (if a = 0 then 64 else 63 - Nat.log2 a.toNat)
/-- Trailing zeros: the position of the lowest one bit. -/
def resCtz (a : Word) : Word := BitVec.ofNat 64 (if a = 0 then 64 else Nat.log2 (a &&& -a).toNat)
def resPopc (a : Word) : Word := BitVec.ofNat 64 ((List.range 64).countP fun i => a.getLsbD i)
def resBrev (a : Word) : Word := a.reverse
def resSext (w : Nat) (a : Word) : Word := BitVec.ofInt 64 (signExt a.toNat w)

/-! ### Shapes of S forms -/

/-- A form of two operands whose result is one scalar (R121). -/
def sBinary (f : SSlot) (lat : Nat) (op : Word → Word → Word) : State → Host.Outcome State Fault Refusal :=
  issueOp fun s =>
    let a := s.sOp f f.sa
    let b := s.sOp f f.sb
    guarded s f.g f.gn [] (.lands lat (.scalar f.d.toNat { val := op a.val b.val, poison := a.poison || b.poison }))

/-- A form of one operand whose result is one scalar. -/
def sUnary (f : SSlot) (op : Word → Word) : State → Host.Outcome State Fault Refusal :=
  issueOp fun s =>
    let a := s.sOp f f.sa
    guarded s f.g f.gn [] (.lands 1 (.scalar f.d.toNat { val := op a.val, poison := a.poison }))

/-- A form whose result is an even-aligned pair (R116). -/
def sPair (f : SSlot) (op : Word → Word → BitVec 128) : State → Host.Outcome State Fault Refusal :=
  issueOp fun s =>
    let a := s.sOp f f.sa
    let b := s.sOp f f.sb
    let r := op a.val b.val
    let p := a.poison || b.poison
    guarded s f.g f.gn [.pair f.d.toNat]
      { results := [⟨4, .scalar f.d.toNat { val := r.truncate 64, poison := p }, 0⟩,
                    ⟨4, .scalar (f.d.toNat + 1) { val := (r >>> 64).truncate 64, poison := p }, 0⟩] }

/-- A saturating form: the clamp ORs VFLAGS.SAT at landing, unless the result is poisoned (R124). -/
def sSaturate (f : SSlot) (signed sub : Bool) : State → Host.Outcome State Fault Refusal :=
  issueOp fun s =>
    let a := s.sOp f f.sa
    let b := s.sOp f f.sb
    let (r, c) := satRule signed sub a.val b.val
    let p := a.poison || b.poison
    guarded s f.g f.gn []
      (.lands 1 (.scalar f.d.toNat { val := r, poison := p }) (flagsUnless p (flagIf c flSAT)))

/-- A form whose result is a predicate: a poisoned operand traps (R117). -/
def sCompare (f : SSlot) (op : Word → Word → Bool) : State → Host.Outcome State Fault Refusal :=
  issueOp fun s =>
    let a := s.sOp f f.sa
    let b := s.sOp f f.sb
    guarded s f.g f.gn []
      { checks := firstOf [failIf a.poison (trapCheck cPoison a.val), failIf b.poison (trapCheck cPoison b.val)]
        results := [⟨1, .pred f.d.toNat (op a.val b.val), 0⟩] }

/-- A form that reads the old value of its destination directly (R120). -/
def sInsert (f : SSlot) (op : Word → Word) (p : Bool) : State → Host.Outcome State Fault Refusal :=
  issueOp fun s =>
    let old := s.cur.sreg f.d.toNat
    guarded s f.g f.gn [] (.lands 1 (.scalar f.d.toNat { val := op old.val, poison := p || old.poison }))

/-- A predicate form over two predicates x and y (R126). -/
def sPredLogic (f : SSlot) (op : Bool → Bool → Bool) : State → Host.Outcome State Fault Refusal :=
  issueOp fun s =>
    let x := s.cur.pred (bits f.imm.toNat 3 0)
    let y := s.cur.pred (bits f.imm.toNat 7 4)
    guarded s f.g f.gn [] (.lands 1 (.pred f.d.toNat (op x y)))

/-- The constant of an S-W form: v << 16q (R127). -/
def moveConst (f : SSlot) : Word := (f.imm.zeroExtend 64) <<< (16 * f.sa.toNat)

/-- A control-register form (R130): a write form computes the new value from the old and a. -/
def sCsr (f : SSlot) (write : Option (Word → Word → Word)) : State → Host.Outcome State Fault Refusal :=
  issueOp fun s =>
    let n := f.imm.toNat
    let num : Word := BitVec.ofNat 64 n
    let old := s.csrRead n
    let a := s.sOp f f.sa
    let priv := failIf (s.issue.lvl == 0#1 && !csrUserReads n) (trapCheck cPrivilege num phPrivilege)
    guarded s f.g f.gn [] <|
      match write with
      | none => { checks := priv, results := [⟨1, .scalar f.d.toNat { val := old }, 0⟩] }
      | some op =>
        let new := op old a.val
        { checks := firstOf
            [priv,
             failIf (!csrWritable n (s.issue.lvl == 1#1)) (trapCheck cPrivilege num phPrivilege),
             failIf a.poison (trapCheck cPoison a.val),
             failIf (!csrAccepts n (s.issue.lvl == 1#1) old new) (trapCheck cControlValue num)]
          results := [⟨1, .scalar f.d.toNat { val := old }, 0⟩, ⟨1, .csr n new, 0⟩] }

/-! ### The forms, in the order of Table 5.2 -/

/-- ADD (R122). -/
def execAdd (f : SSlot) : State → Host.Outcome State Fault Refusal :=
  sBinary f 1 fun a b => a + b

/-- SUB (R122). -/
def execSub (f : SSlot) : State → Host.Outcome State Fault Refusal :=
  sBinary f 1 fun a b => a - b

/-- AND (R122). -/
def execAnd (f : SSlot) : State → Host.Outcome State Fault Refusal :=
  sBinary f 1 fun a b => a &&& b

/-- OR (R122). -/
def execOr (f : SSlot) : State → Host.Outcome State Fault Refusal :=
  sBinary f 1 fun a b => a ||| b

/-- XOR (R122). -/
def execXor (f : SSlot) : State → Host.Outcome State Fault Refusal :=
  sBinary f 1 fun a b => a ^^^ b

/-- ANDN (R122). -/
def execAndn (f : SSlot) : State → Host.Outcome State Fault Refusal :=
  sBinary f 1 fun a b => a &&& ~~~b

/-- ORN (R122). -/
def execOrn (f : SSlot) : State → Host.Outcome State Fault Refusal :=
  sBinary f 1 fun a b => a ||| ~~~b

/-- XNOR (R122). -/
def execXnor (f : SSlot) : State → Host.Outcome State Fault Refusal :=
  sBinary f 1 fun a b => ~~~(a ^^^ b)

/-- SHL (R122). -/
def execShl (f : SSlot) : State → Host.Outcome State Fault Refusal :=
  sBinary f 1 fun a b => a <<< shAmt b

/-- SHR (R122). -/
def execShr (f : SSlot) : State → Host.Outcome State Fault Refusal :=
  sBinary f 1 fun a b => a >>> shAmt b

/-- SAR (R122). -/
def execSar (f : SSlot) : State → Host.Outcome State Fault Refusal :=
  sBinary f 1 fun a b => a.sshiftRight (shAmt b)

/-- ROL (R122). -/
def execRol (f : SSlot) : State → Host.Outcome State Fault Refusal :=
  sBinary f 1 fun a b => a.rotateLeft (shAmt b)

/-- ROR (R122). -/
def execRor (f : SSlot) : State → Host.Outcome State Fault Refusal :=
  sBinary f 1 fun a b => a.rotateRight (shAmt b)

/-- SHADD (R122). -/
def execShadd (f : SSlot) : State → Host.Outcome State Fault Refusal :=
  sBinary f 1 fun a b => a + (b <<< 3)

/-- ABS (R122). -/
def execAbs (f : SSlot) : State → Host.Outcome State Fault Refusal :=
  sUnary f fun a => BitVec.ofNat 64 a.toInt.natAbs

/-- MUL (R122). -/
def execMul (f : SSlot) : State → Host.Outcome State Fault Refusal :=
  sBinary f 3 fun a b => a * b

/-- MULH_I (R122). -/
def execMulhI (f : SSlot) : State → Host.Outcome State Fault Refusal :=
  sBinary f 4 fun a b => resMulh a.toInt b.toInt

/-- MULH_N (R122). -/
def execMulhN (f : SSlot) : State → Host.Outcome State Fault Refusal :=
  sBinary f 4 fun a b => resMulh a.toNat b.toNat

/-- MULH_IN (R122). -/
def execMulhIn (f : SSlot) : State → Host.Outcome State Fault Refusal :=
  sBinary f 4 fun a b => resMulh a.toInt b.toNat

/-- MULW_I (R116). -/
def execMulwI (f : SSlot) : State → Host.Outcome State Fault Refusal :=
  sPair f fun a b => BitVec.ofInt 128 (a.toInt * b.toInt)

/-- MULW_N (R116). -/
def execMulwN (f : SSlot) : State → Host.Outcome State Fault Refusal :=
  sPair f fun a b => BitVec.ofNat 128 (a.toNat * b.toNat)

/-- DIV_I (R123). -/
def execDivI (f : SSlot) : State → Host.Outcome State Fault Refusal :=
  sBinary f 24 fun a b => (divRule true a b).1

/-- DIV_N (R123). -/
def execDivN (f : SSlot) : State → Host.Outcome State Fault Refusal :=
  sBinary f 24 fun a b => (divRule false a b).1

/-- REM_I (R123). -/
def execRemI (f : SSlot) : State → Host.Outcome State Fault Refusal :=
  sBinary f 24 fun a b => (divRule true a b).2

/-- REM_N (R123). -/
def execRemN (f : SSlot) : State → Host.Outcome State Fault Refusal :=
  sBinary f 24 fun a b => (divRule false a b).2

/-- MIN_I (R122). -/
def execMinI (f : SSlot) : State → Host.Outcome State Fault Refusal :=
  sBinary f 1 fun a b => if a.toInt ≤ b.toInt then a else b

/-- MIN_N (R122). -/
def execMinN (f : SSlot) : State → Host.Outcome State Fault Refusal :=
  sBinary f 1 fun a b => if a.toNat ≤ b.toNat then a else b

/-- MAX_I (R122). -/
def execMaxI (f : SSlot) : State → Host.Outcome State Fault Refusal :=
  sBinary f 1 fun a b => if a.toInt ≤ b.toInt then b else a

/-- MAX_N (R122). -/
def execMaxN (f : SSlot) : State → Host.Outcome State Fault Refusal :=
  sBinary f 1 fun a b => if a.toNat ≤ b.toNat then b else a

/-- ADDS_I (R124). -/
def execAddsI (f : SSlot) : State → Host.Outcome State Fault Refusal :=
  sSaturate f true false

/-- ADDS_N (R124). -/
def execAddsN (f : SSlot) : State → Host.Outcome State Fault Refusal :=
  sSaturate f false false

/-- SUBS_I (R124). -/
def execSubsI (f : SSlot) : State → Host.Outcome State Fault Refusal :=
  sSaturate f true true

/-- SUBS_N (R124). -/
def execSubsN (f : SSlot) : State → Host.Outcome State Fault Refusal :=
  sSaturate f false true

/-- CLZ (R122). -/
def execClz (f : SSlot) : State → Host.Outcome State Fault Refusal :=
  sUnary f fun a => resClz a

/-- CTZ (R122). -/
def execCtz (f : SSlot) : State → Host.Outcome State Fault Refusal :=
  sUnary f fun a => resCtz a

/-- POPC (R122). -/
def execPopc (f : SSlot) : State → Host.Outcome State Fault Refusal :=
  sUnary f fun a => resPopc a

/-- BREV (R122). -/
def execBrev (f : SSlot) : State → Host.Outcome State Fault Refusal :=
  sUnary f fun a => resBrev a

/-- EXTR_I (R122). -/
def execExtrI (f : SSlot) : State → Host.Outcome State Fault Refusal :=
  sBinary f 1 fun a b => resExtr true a b

/-- EXTR_N (R122). -/
def execExtrN (f : SSlot) : State → Host.Outcome State Fault Refusal :=
  sBinary f 1 fun a b => resExtr false a b

/-- INSR (R125; a poisoned b poisons it under R117). -/
def execInsr (f : SSlot) : State → Host.Outcome State Fault Refusal :=
  issueOp fun s =>
    let a := s.sOp f f.sa
    let b := s.sOp f f.sb
    let old := s.cur.sreg f.d.toNat
    guarded s f.g f.gn []
      (.lands 1 (.scalar f.d.toNat
        { val := resInsr old.val a.val b.val, poison := a.poison || b.poison || old.poison }))

/-- SEXT_I8 (R122). -/
def execSextI8 (f : SSlot) : State → Host.Outcome State Fault Refusal :=
  sUnary f fun a => resSext 8 a

/-- SEXT_I16 (R122). -/
def execSextI16 (f : SSlot) : State → Host.Outcome State Fault Refusal :=
  sUnary f fun a => resSext 16 a

/-- SEXT_I32 (R122). -/
def execSextI32 (f : SSlot) : State → Host.Outcome State Fault Refusal :=
  sUnary f fun a => resSext 32 a

/-- CMP_EQ (R122). -/
def execCmpEq (f : SSlot) : State → Host.Outcome State Fault Refusal :=
  sCompare f fun a b => a == b

/-- CMP_NE (R122). -/
def execCmpNe (f : SSlot) : State → Host.Outcome State Fault Refusal :=
  sCompare f fun a b => a != b

/-- CMP_LT_I (R122). -/
def execCmpLtI (f : SSlot) : State → Host.Outcome State Fault Refusal :=
  sCompare f fun a b => a.toInt < b.toInt

/-- CMP_LE_I (R122). -/
def execCmpLeI (f : SSlot) : State → Host.Outcome State Fault Refusal :=
  sCompare f fun a b => a.toInt ≤ b.toInt

/-- CMP_GT_I (R122). -/
def execCmpGtI (f : SSlot) : State → Host.Outcome State Fault Refusal :=
  sCompare f fun a b => b.toInt < a.toInt

/-- CMP_GE_I (R122). -/
def execCmpGeI (f : SSlot) : State → Host.Outcome State Fault Refusal :=
  sCompare f fun a b => b.toInt ≤ a.toInt

/-- CMP_LT_N (R122). -/
def execCmpLtN (f : SSlot) : State → Host.Outcome State Fault Refusal :=
  sCompare f fun a b => a.toNat < b.toNat

/-- CMP_LE_N (R122). -/
def execCmpLeN (f : SSlot) : State → Host.Outcome State Fault Refusal :=
  sCompare f fun a b => a.toNat ≤ b.toNat

/-- CMP_GT_N (R122). -/
def execCmpGtN (f : SSlot) : State → Host.Outcome State Fault Refusal :=
  sCompare f fun a b => b.toNat < a.toNat

/-- CMP_GE_N (R122). -/
def execCmpGeN (f : SSlot) : State → Host.Outcome State Fault Refusal :=
  sCompare f fun a b => b.toNat ≤ a.toNat

/-- TST_ANY (R122). -/
def execTstAny (f : SSlot) : State → Host.Outcome State Fault Refusal :=
  sCompare f fun a b => (a &&& b) != 0

/-- TST_NONE (R122). -/
def execTstNone (f : SSlot) : State → Host.Outcome State Fault Refusal :=
  sCompare f fun a b => (a &&& b) == 0

/-- SEL (R117, R122: the result takes the poison of the operand it selects). -/
def execSel (f : SSlot) : State → Host.Outcome State Fault Refusal :=
  issueOp fun s =>
    let v := if s.cur.pred (bits f.imm.toNat 3 0) then s.sOp f f.sa else s.sOp f f.sb
    guarded s f.g f.gn [] (.lands 1 (.scalar f.d.toNat v))

/-- MOVZ (R127). -/
def execMovz (f : SSlot) : State → Host.Outcome State Fault Refusal :=
  issueOp fun s => guarded s f.g f.gn [] (.lands 1 (.scalar f.d.toNat { val := moveConst f }))

/-- MOVK (R127). -/
def execMovk (f : SSlot) : State → Host.Outcome State Fault Refusal :=
  sInsert f (fun old => (old &&& ~~~((0xFFFF#64) <<< (16 * f.sa.toNat))) ||| moveConst f) false

/-- MOVN (R127). -/
def execMovn (f : SSlot) : State → Host.Outcome State Fault Refusal :=
  issueOp fun s => guarded s f.g f.gn [] (.lands 1 (.scalar f.d.toNat { val := ~~~(moveConst f) }))

/-- PAND (R126). -/
def execPand (f : SSlot) : State → Host.Outcome State Fault Refusal :=
  sPredLogic f fun x y => x && y

/-- POR (R126). -/
def execPor (f : SSlot) : State → Host.Outcome State Fault Refusal :=
  sPredLogic f fun x y => x || y

/-- PXOR (R126). -/
def execPxor (f : SSlot) : State → Host.Outcome State Fault Refusal :=
  sPredLogic f fun x y => x != y

/-- PANDN (R126). -/
def execPandn (f : SSlot) : State → Host.Outcome State Fault Refusal :=
  sPredLogic f fun x y => x && !y

/-- PMOVS (R126). -/
def execPmovs (f : SSlot) : State → Host.Outcome State Fault Refusal :=
  issueOp fun s =>
    guarded s f.g f.gn [] (.lands 1 (.scalar f.d.toNat { val := if s.cur.pred (bits f.imm.toNat 3 0) then 1 else 0 }))

/-- SMOVP (R117, R122). -/
def execSmovp (f : SSlot) : State → Host.Outcome State Fault Refusal :=
  issueOp fun s =>
    let a := s.sOp f f.sa
    guarded s f.g f.gn []
      { checks := failIf a.poison (trapCheck cPoison a.val), results := [⟨1, .pred f.d.toNat (a.val != 0), 0⟩] }

/-- CSRR (R130). -/
def execCsrr (f : SSlot) : State → Host.Outcome State Fault Refusal :=
  sCsr f none

/-- CSRW (R130). -/
def execCsrw (f : SSlot) : State → Host.Outcome State Fault Refusal :=
  sCsr f (some fun _ a => a)

/-- CSRS (R130). -/
def execCsrs (f : SSlot) : State → Host.Outcome State Fault Refusal :=
  sCsr f (some fun old a => old ||| a)

/-- CSRC (R130). -/
def execCsrc (f : SSlot) : State → Host.Outcome State Fault Refusal :=
  sCsr f (some fun old a => old &&& ~~~a)

/-- KTIME (R132). -/
def execKtime (f : SSlot) : State → Host.Outcome State Fault Refusal :=
  issueOp fun s => guarded s f.g f.gn [] (.lands 1 (.scalar f.d.toNat { val := (s.die (dieOf s.issue.tile)).keyTime }))

end Sys2Proof.Machine
end

