-- ==== Sys2Proof/Machine/Dispatch.lean ====
section
/-! DEFINITION. The dispatch of every operation of the opcode table to its meaning: one arm each. -/

namespace Sys2Proof.Machine

def exec (i : Instr) (s : State) : Host.Outcome State Fault Refusal :=
  match i with
  | .add f => Sys2Proof.Machine.execAdd f s
  | .sub f => Sys2Proof.Machine.execSub f s
  | .and f => Sys2Proof.Machine.execAnd f s
  | .or f => Sys2Proof.Machine.execOr f s
  | .xor f => Sys2Proof.Machine.execXor f s
  | .andn f => Sys2Proof.Machine.execAndn f s
  | .orn f => Sys2Proof.Machine.execOrn f s
  | .xnor f => Sys2Proof.Machine.execXnor f s
  | .shl f => Sys2Proof.Machine.execShl f s
  | .shr f => Sys2Proof.Machine.execShr f s
  | .sar f => Sys2Proof.Machine.execSar f s
  | .rol f => Sys2Proof.Machine.execRol f s
  | .ror f => Sys2Proof.Machine.execRor f s
  | .shadd f => Sys2Proof.Machine.execShadd f s
  | .abs f => Sys2Proof.Machine.execAbs f s
  | .mul f => Sys2Proof.Machine.execMul f s
  | .mulhI f => Sys2Proof.Machine.execMulhI f s
  | .mulhN f => Sys2Proof.Machine.execMulhN f s
  | .mulhIn f => Sys2Proof.Machine.execMulhIn f s
  | .mulwI f => Sys2Proof.Machine.execMulwI f s
  | .mulwN f => Sys2Proof.Machine.execMulwN f s
  | .divI f => Sys2Proof.Machine.execDivI f s
  | .divN f => Sys2Proof.Machine.execDivN f s
  | .remI f => Sys2Proof.Machine.execRemI f s
  | .remN f => Sys2Proof.Machine.execRemN f s
  | .minI f => Sys2Proof.Machine.execMinI f s
  | .minN f => Sys2Proof.Machine.execMinN f s
  | .maxI f => Sys2Proof.Machine.execMaxI f s
  | .maxN f => Sys2Proof.Machine.execMaxN f s
  | .addsI f => Sys2Proof.Machine.execAddsI f s
  | .addsN f => Sys2Proof.Machine.execAddsN f s
  | .subsI f => Sys2Proof.Machine.execSubsI f s
  | .subsN f => Sys2Proof.Machine.execSubsN f s
  | .clz f => Sys2Proof.Machine.execClz f s
  | .ctz f => Sys2Proof.Machine.execCtz f s
  | .popc f => Sys2Proof.Machine.execPopc f s
  | .brev f => Sys2Proof.Machine.execBrev f s
  | .extrI f => Sys2Proof.Machine.execExtrI f s
  | .extrN f => Sys2Proof.Machine.execExtrN f s
  | .insr f => Sys2Proof.Machine.execInsr f s
  | .sextI8 f => Sys2Proof.Machine.execSextI8 f s
  | .sextI16 f => Sys2Proof.Machine.execSextI16 f s
  | .sextI32 f => Sys2Proof.Machine.execSextI32 f s
  | .cmpEq f => Sys2Proof.Machine.execCmpEq f s
  | .cmpNe f => Sys2Proof.Machine.execCmpNe f s
  | .cmpLtI f => Sys2Proof.Machine.execCmpLtI f s
  | .cmpLeI f => Sys2Proof.Machine.execCmpLeI f s
  | .cmpGtI f => Sys2Proof.Machine.execCmpGtI f s
  | .cmpGeI f => Sys2Proof.Machine.execCmpGeI f s
  | .cmpLtN f => Sys2Proof.Machine.execCmpLtN f s
  | .cmpLeN f => Sys2Proof.Machine.execCmpLeN f s
  | .cmpGtN f => Sys2Proof.Machine.execCmpGtN f s
  | .cmpGeN f => Sys2Proof.Machine.execCmpGeN f s
  | .tstAny f => Sys2Proof.Machine.execTstAny f s
  | .tstNone f => Sys2Proof.Machine.execTstNone f s
  | .sel f => Sys2Proof.Machine.execSel f s
  | .movz f => Sys2Proof.Machine.execMovz f s
  | .movk f => Sys2Proof.Machine.execMovk f s
  | .movn f => Sys2Proof.Machine.execMovn f s
  | .pand f => Sys2Proof.Machine.execPand f s
  | .por f => Sys2Proof.Machine.execPor f s
  | .pxor f => Sys2Proof.Machine.execPxor f s
  | .pandn f => Sys2Proof.Machine.execPandn f s
  | .pmovs f => Sys2Proof.Machine.execPmovs f s
  | .smovp f => Sys2Proof.Machine.execSmovp f s
  | .csrr f => Sys2Proof.Machine.execCsrr f s
  | .csrw f => Sys2Proof.Machine.execCsrw f s
  | .csrs f => Sys2Proof.Machine.execCsrs f s
  | .csrc f => Sys2Proof.Machine.execCsrc f s
  | .ktime f => Sys2Proof.Machine.execKtime f s
  | .ldI8 f => Sys2Proof.Machine.execLdI8 f s
  | .ldN8 f => Sys2Proof.Machine.execLdN8 f s
  | .ldI16 f => Sys2Proof.Machine.execLdI16 f s
  | .ldN16 f => Sys2Proof.Machine.execLdN16 f s
  | .ldI32 f => Sys2Proof.Machine.execLdI32 f s
  | .ldN32 f => Sys2Proof.Machine.execLdN32 f s
  | .ld64 f => Sys2Proof.Machine.execLd64 f s
  | .ldN32Acq f => Sys2Proof.Machine.execLdN32Acq f s
  | .ld64Acq f => Sys2Proof.Machine.execLd64Acq f s
  | .st8 f => Sys2Proof.Machine.execSt8 f s
  | .st16 f => Sys2Proof.Machine.execSt16 f s
  | .st32 f => Sys2Proof.Machine.execSt32 f s
  | .st64 f => Sys2Proof.Machine.execSt64 f s
  | .st32Rel f => Sys2Proof.Machine.execSt32Rel f s
  | .st64Rel f => Sys2Proof.Machine.execSt64Rel f s
  | .lda f => Sys2Proof.Machine.execLda f s
  | .ldaAcq f => Sys2Proof.Machine.execLdaAcq f s
  | .sta f => Sys2Proof.Machine.execSta f s
  | .staRel f => Sys2Proof.Machine.execStaRel f s
  | .aadd f => Sys2Proof.Machine.execAadd f s
  | .aaddAcq f => Sys2Proof.Machine.execAaddAcq f s
  | .aaddRel f => Sys2Proof.Machine.execAaddRel f s
  | .aaddAr f => Sys2Proof.Machine.execAaddAr f s
  | .aswp f => Sys2Proof.Machine.execAswp f s
  | .aswpAcq f => Sys2Proof.Machine.execAswpAcq f s
  | .aswpRel f => Sys2Proof.Machine.execAswpRel f s
  | .aswpAr f => Sys2Proof.Machine.execAswpAr f s
  | .vld f => Sys2Proof.Machine.execVld f s
  | .vlds f => Sys2Proof.Machine.execVlds f s
  | .vst f => Sys2Proof.Machine.execVst f s
  | .vsts f => Sys2Proof.Machine.execVsts f s
  | .vaddF32 f => Sys2Proof.Machine.execVaddF32 f s
  | .vaddF16 f => Sys2Proof.Machine.execVaddF16 f s
  | .vaddBf16 f => Sys2Proof.Machine.execVaddBf16 f s
  | .vaddI32 f => Sys2Proof.Machine.execVaddI32 f s
  | .vaddI16 f => Sys2Proof.Machine.execVaddI16 f s
  | .vaddI8 f => Sys2Proof.Machine.execVaddI8 f s
  | .vsubF32 f => Sys2Proof.Machine.execVsubF32 f s
  | .vsubF16 f => Sys2Proof.Machine.execVsubF16 f s
  | .vsubBf16 f => Sys2Proof.Machine.execVsubBf16 f s
  | .vsubI32 f => Sys2Proof.Machine.execVsubI32 f s
  | .vsubI16 f => Sys2Proof.Machine.execVsubI16 f s
  | .vsubI8 f => Sys2Proof.Machine.execVsubI8 f s
  | .vmulF32 f => Sys2Proof.Machine.execVmulF32 f s
  | .vmulF16 f => Sys2Proof.Machine.execVmulF16 f s
  | .vmulBf16 f => Sys2Proof.Machine.execVmulBf16 f s
  | .vmulI32 f => Sys2Proof.Machine.execVmulI32 f s
  | .vmulI16 f => Sys2Proof.Machine.execVmulI16 f s
  | .vfmaF32 f => Sys2Proof.Machine.execVfmaF32 f s
  | .vfmaF16 f => Sys2Proof.Machine.execVfmaF16 f s
  | .vfmaBf16 f => Sys2Proof.Machine.execVfmaBf16 f s
  | .vminF32 f => Sys2Proof.Machine.execVminF32 f s
  | .vminF16 f => Sys2Proof.Machine.execVminF16 f s
  | .vminBf16 f => Sys2Proof.Machine.execVminBf16 f s
  | .vminI32 f => Sys2Proof.Machine.execVminI32 f s
  | .vmaxF32 f => Sys2Proof.Machine.execVmaxF32 f s
  | .vmaxF16 f => Sys2Proof.Machine.execVmaxF16 f s
  | .vmaxBf16 f => Sys2Proof.Machine.execVmaxBf16 f s
  | .vmaxI32 f => Sys2Proof.Machine.execVmaxI32 f s
  | .vaddsI32 f => Sys2Proof.Machine.execVaddsI32 f s
  | .vaddsI16 f => Sys2Proof.Machine.execVaddsI16 f s
  | .vaddsI8 f => Sys2Proof.Machine.execVaddsI8 f s
  | .vaddsN8 f => Sys2Proof.Machine.execVaddsN8 f s
  | .vsubsI32 f => Sys2Proof.Machine.execVsubsI32 f s
  | .vsubsI16 f => Sys2Proof.Machine.execVsubsI16 f s
  | .vsubsI8 f => Sys2Proof.Machine.execVsubsI8 f s
  | .vsubsN8 f => Sys2Proof.Machine.execVsubsN8 f s
  | .vmulhI32 f => Sys2Proof.Machine.execVmulhI32 f s
  | .vmulhN32 f => Sys2Proof.Machine.execVmulhN32 f s
  | .vabsF32 f => Sys2Proof.Machine.execVabsF32 f s
  | .vabsI32 f => Sys2Proof.Machine.execVabsI32 f s
  | .vnegF32 f => Sys2Proof.Machine.execVnegF32 f s
  | .vnegI32 f => Sys2Proof.Machine.execVnegI32 f s
  | .vrcp f => Sys2Proof.Machine.execVrcp f s
  | .vrsq f => Sys2Proof.Machine.execVrsq f s
  | .vexp2 f => Sys2Proof.Machine.execVexp2 f s
  | .vlog2 f => Sys2Proof.Machine.execVlog2 f s
  | .vsqrt f => Sys2Proof.Machine.execVsqrt f s
  | .vand f => Sys2Proof.Machine.execVand f s
  | .vor f => Sys2Proof.Machine.execVor f s
  | .vxor f => Sys2Proof.Machine.execVxor f s
  | .vandn f => Sys2Proof.Machine.execVandn f s
  | .vshl f => Sys2Proof.Machine.execVshl f s
  | .vshr f => Sys2Proof.Machine.execVshr f s
  | .vsar f => Sys2Proof.Machine.execVsar f s
  | .vclz f => Sys2Proof.Machine.execVclz f s
  | .vpopc f => Sys2Proof.Machine.execVpopc f s
  | .vcmpF32Eq f => Sys2Proof.Machine.execVcmpF32Eq f s
  | .vcmpF32Ne f => Sys2Proof.Machine.execVcmpF32Ne f s
  | .vcmpF32Lt f => Sys2Proof.Machine.execVcmpF32Lt f s
  | .vcmpF32Le f => Sys2Proof.Machine.execVcmpF32Le f s
  | .vcmpF32Un f => Sys2Proof.Machine.execVcmpF32Un f s
  | .vcmpI32Eq f => Sys2Proof.Machine.execVcmpI32Eq f s
  | .vcmpI32Ne f => Sys2Proof.Machine.execVcmpI32Ne f s
  | .vcmpI32Lt f => Sys2Proof.Machine.execVcmpI32Lt f s
  | .vcmpI32Le f => Sys2Proof.Machine.execVcmpI32Le f s
  | .vcmpN32Lt f => Sys2Proof.Machine.execVcmpN32Lt f s
  | .vcmpN32Le f => Sys2Proof.Machine.execVcmpN32Le f s
  | .vsel f => Sys2Proof.Machine.execVsel f s
  | .mand f => Sys2Proof.Machine.execMand f s
  | .mor f => Sys2Proof.Machine.execMor f s
  | .mxor f => Sys2Proof.Machine.execMxor f s
  | .mandn f => Sys2Proof.Machine.execMandn f s
  | .mtos f => Sys2Proof.Machine.execMtos f s
  | .stom f => Sys2Proof.Machine.execStom f s
  | .vraddF32 f => Sys2Proof.Machine.execVraddF32 f s
  | .vraddI32 f => Sys2Proof.Machine.execVraddI32 f s
  | .vrmaxF32 f => Sys2Proof.Machine.execVrmaxF32 f s
  | .vrmaxI32 f => Sys2Proof.Machine.execVrmaxI32 f s
  | .vrminF32 f => Sys2Proof.Machine.execVrminF32 f s
  | .vrminI32 f => Sys2Proof.Machine.execVrminI32 f s
  | .vperm f => Sys2Proof.Machine.execVperm f s
  | .vrot f => Sys2Proof.Machine.execVrot f s
  | .vbcast f => Sys2Proof.Machine.execVbcast f s
  | .vext f => Sys2Proof.Machine.execVext f s
  | .vins f => Sys2Proof.Machine.execVins f s
  | .vmov f => Sys2Proof.Machine.execVmov f s
  | .vmovi f => Sys2Proof.Machine.execVmovi f s
  | .vcvtF16F32 f => Sys2Proof.Machine.execVcvtF16F32 f s
  | .vcvtBf16F32 f => Sys2Proof.Machine.execVcvtBf16F32 f s
  | .vcvtF32F16 f => Sys2Proof.Machine.execVcvtF32F16 f s
  | .vcvtF32Bf16 f => Sys2Proof.Machine.execVcvtF32Bf16 f s
  | .vcvtI32F32 f => Sys2Proof.Machine.execVcvtI32F32 f s
  | .vcvtN32F32 f => Sys2Proof.Machine.execVcvtN32F32 f s
  | .vcvtF32I32 f => Sys2Proof.Machine.execVcvtF32I32 f s
  | .vcvtF32N32 f => Sys2Proof.Machine.execVcvtF32N32 f s
  | .vtologLb8 f => Sys2Proof.Machine.execVtologLb8 f s
  | .vtologLb6 f => Sys2Proof.Machine.execVtologLb6 f s
  | .vtologLb4 f => Sys2Proof.Machine.execVtologLb4 f s
  | .vtologLm16 f => Sys2Proof.Machine.execVtologLm16 f s
  | .vfromlogLb8 f => Sys2Proof.Machine.execVfromlogLb8 f s
  | .vfromlogLb6 f => Sys2Proof.Machine.execVfromlogLb6 f s
  | .vfromlogLb4 f => Sys2Proof.Machine.execVfromlogLb4 f s
  | .vfromlogLm16 f => Sys2Proof.Machine.execVfromlogLm16 f s
  | .vbpackLb8 f => Sys2Proof.Machine.execVbpackLb8 f s
  | .vbpackLb6 f => Sys2Proof.Machine.execVbpackLb6 f s
  | .vbpackLb4 f => Sys2Proof.Machine.execVbpackLb4 f s
  | .vbunpLb8 f => Sys2Proof.Machine.execVbunpLb8 f s
  | .vbunpLb6 f => Sys2Proof.Machine.execVbunpLb6 f s
  | .vbunpLb4 f => Sys2Proof.Machine.execVbunpLb4 f s
  | .vtordwF32 f => Sys2Proof.Machine.execVtordwF32 f s
  | .vtordwA64 f => Sys2Proof.Machine.execVtordwA64 f s
  | .vfromrdwF32 f => Sys2Proof.Machine.execVfromrdwF32 f s
  | .vfromrdwA64 f => Sys2Proof.Machine.execVfromrdwA64 f s
  | .vaddrdw f => Sys2Proof.Machine.execVaddrdw f s
  | .vcvtaF32 f => Sys2Proof.Machine.execVcvtaF32 f s
  | .vcvtaA64 f => Sys2Proof.Machine.execVcvtaA64 f s
  | .nop => Sys2Proof.Machine.execNop s
  | .nopF => Sys2Proof.Machine.execNopF s
  | .nopC => Sys2Proof.Machine.execNopC s
  | .regionOpen => Sys2Proof.Machine.execRegionOpen s
  | .bankLock => Sys2Proof.Machine.execBankLock s
  | .wload f => Sys2Proof.Machine.execWload f s
  | .wloadw f => Sys2Proof.Machine.execWloadw f s
  | .streamAdd f => Sys2Proof.Machine.execStreamAdd f s
  | .streamOvw f => Sys2Proof.Machine.execStreamOvw f s
  | .streamTAdd f => Sys2Proof.Machine.execStreamTAdd f s
  | .streamTOvw f => Sys2Proof.Machine.execStreamTOvw f s
  | .drain f => Sys2Proof.Machine.execDrain f s
  | .drainRdw f => Sys2Proof.Machine.execDrainRdw f s
  | .accclr f => Sys2Proof.Machine.execAccclr f s
  | .anchor f => Sys2Proof.Machine.execAnchor f s
  | .oclaim f => Sys2Proof.Machine.execOclaim f s
  | .orelease f => Sys2Proof.Machine.execOrelease f s
  | .fmtsel f => Sys2Proof.Machine.execFmtsel f s
  | .accpin f => Sys2Proof.Machine.execAccpin f s
  | .accpinClr f => Sys2Proof.Machine.execAccpinClr f s
  | .copy f => Sys2Proof.Machine.execCopy f s
  | .gather f => Sys2Proof.Machine.execGather f s
  | .scatter f => Sys2Proof.Machine.execScatter f s
  | .get f => Sys2Proof.Machine.execGet f s
  | .put f => Sys2Proof.Machine.execPut f s
  | .layreg f => Sys2Proof.Machine.execLayreg f s
  | .laydrop f => Sys2Proof.Machine.execLaydrop f s
  | .wmset f => Sys2Proof.Machine.execWmset f s
  | .smalloc f => Sys2Proof.Machine.execSmalloc f s
  | .smfree f => Sys2Proof.Machine.execSmfree f s
  | .smquery f => Sys2Proof.Machine.execSmquery f s
  | .smld f => Sys2Proof.Machine.execSmld f s
  | .smldAcq f => Sys2Proof.Machine.execSmldAcq f s
  | .smst f => Sys2Proof.Machine.execSmst f s
  | .smstRel f => Sys2Proof.Machine.execSmstRel f s
  | .smatomAdd f => Sys2Proof.Machine.execSmatomAdd f s
  | .smatomSwap f => Sys2Proof.Machine.execSmatomSwap f s
  | .smatomCas f => Sys2Proof.Machine.execSmatomCas f s
  | .smatomMinI f => Sys2Proof.Machine.execSmatomMinI f s
  | .smatomMaxI f => Sys2Proof.Machine.execSmatomMaxI f s
  | .smatomMinN f => Sys2Proof.Machine.execSmatomMinN f s
  | .smatomMaxN f => Sys2Proof.Machine.execSmatomMaxN f s
  | .burnishUpdate f => Sys2Proof.Machine.execBurnishUpdate f s
  | .burnishRecipeLoad f => Sys2Proof.Machine.execBurnishRecipeLoad f s
  | .send f => Sys2Proof.Machine.execSend f s
  | .recv f => Sys2Proof.Machine.execRecv f s
  | .recvaddReg f => Sys2Proof.Machine.execRecvaddReg f s
  | .recvaddAcc f => Sys2Proof.Machine.execRecvaddAcc f s
  | .relay f => Sys2Proof.Machine.execRelay f s
  | .br f => Sys2Proof.Machine.execBr f s
  | .brpT f => Sys2Proof.Machine.execBrpT f s
  | .brpF f => Sys2Proof.Machine.execBrpF f s
  | .bri f => Sys2Proof.Machine.execBri f s
  | .call f => Sys2Proof.Machine.execCall f s
  | .calli f => Sys2Proof.Machine.execCalli f s
  | .ret f => Sys2Proof.Machine.execRet f s
  | .loop f => Sys2Proof.Machine.execLoop f s
  | .lend f => Sys2Proof.Machine.execLend f s
  | .semw f => Sys2Proof.Machine.execSemw f s
  | .sems f => Sys2Proof.Machine.execSems f s
  | .phregSig f => Sys2Proof.Machine.execPhregSig f s
  | .phregWait f => Sys2Proof.Machine.execPhregWait f s
  | .phregSw f => Sys2Proof.Machine.execPhregSw f s
  | .pharr f => Sys2Proof.Machine.execPharr f s
  | .phwait f => Sys2Proof.Machine.execPhwait f s
  | .phdrop f => Sys2Proof.Machine.execPhdrop f s
  | .fence f => Sys2Proof.Machine.execFence f s
  | .yield f => Sys2Proof.Machine.execYield f s
  | .halt f => Sys2Proof.Machine.execHalt f s
  | .align f => Sys2Proof.Machine.execAlign f s
  | .ftrbeg f => Sys2Proof.Machine.execFtrbeg f s
  | .ftrend f => Sys2Proof.Machine.execFtrend f s
  | .trap f => Sys2Proof.Machine.execTrap f s
  | .eret f => Sys2Proof.Machine.execEret f s
  | .eres f => Sys2Proof.Machine.execEres f s
  | .park f => Sys2Proof.Machine.execPark f s
  | .unparkReturn f => Sys2Proof.Machine.execUnparkReturn f s
  | .unparkResume f => Sys2Proof.Machine.execUnparkResume f s
  | .unparkRedirect f => Sys2Proof.Machine.execUnparkRedirect f s
  | .unparkEnd f => Sys2Proof.Machine.execUnparkEnd f s
  | .resultLanding => Sys2Proof.Machine.execResultLanding s
  | .lateResultLanding => Sys2Proof.Machine.execLateResultLanding s
  | .lazyRegisterFill => Sys2Proof.Machine.execLazyRegisterFill s
  | .matrixCommandBegin => Sys2Proof.Machine.execMatrixCommandBegin s
  | .matrixCommandCompletion => Sys2Proof.Machine.execMatrixCommandCompletion s
  | .engineStep => Sys2Proof.Machine.execEngineStep s
  | .engineFaultTaken => Sys2Proof.Machine.execEngineFaultTaken s
  | .copyCommandBegin => Sys2Proof.Machine.execCopyCommandBegin s
  | .copyCommandCompletion => Sys2Proof.Machine.execCopyCommandCompletion s
  | .burnishBegin => Sys2Proof.Machine.execBurnishBegin s
  | .burnishCompletion => Sys2Proof.Machine.execBurnishCompletion s
  | .fabricCommandCompletion => Sys2Proof.Machine.execFabricCommandCompletion s
  | .beatArrival => Sys2Proof.Machine.execBeatArrival s
  | .translationWalkComplete => Sys2Proof.Machine.execTranslationWalkComplete s
  | .farAcquireReply => Sys2Proof.Machine.execFarAcquireReply s
  | .trapEntry => Sys2Proof.Machine.execTrapEntry s
  | .faultQueueRetest => Sys2Proof.Machine.execFaultQueueRetest s
  | .quantumExpiry => Sys2Proof.Machine.execQuantumExpiry s
  | .regionLimitExpiry => Sys2Proof.Machine.execRegionLimitExpiry s
  | .ftrTimerExpiry => Sys2Proof.Machine.execFtrTimerExpiry s
  | .progressWatchdog => Sys2Proof.Machine.execProgressWatchdog s
  | .preemptionRequest => Sys2Proof.Machine.execPreemptionRequest s
  | .lazyPreemption => Sys2Proof.Machine.execLazyPreemption s
  | .urgentPreemption => Sys2Proof.Machine.execUrgentPreemption s
  | .contextSave => Sys2Proof.Machine.execContextSave s
  | .contextRestore => Sys2Proof.Machine.execContextRestore s
  | .launchRecordPost => Sys2Proof.Machine.execLaunchRecordPost s
  | .launchHeadCheck => Sys2Proof.Machine.execLaunchHeadCheck s
  | .launchFire => Sys2Proof.Machine.execLaunchFire s
  | .instanceStart => Sys2Proof.Machine.execInstanceStart s
  | .memberPlace => Sys2Proof.Machine.execMemberPlace s
  | .contextEnd => Sys2Proof.Machine.execContextEnd s
  | .compaction => Sys2Proof.Machine.execCompaction s
  | .masterElection => Sys2Proof.Machine.execMasterElection s
  | .scrub => Sys2Proof.Machine.execScrub s
  | .beaconSend => Sys2Proof.Machine.execBeaconSend s
  | .beaconReceive => Sys2Proof.Machine.execBeaconReceive s
  | .parentBeaconTimeout => Sys2Proof.Machine.execParentBeaconTimeout s
  | .stretchAnnounce => Sys2Proof.Machine.execStretchAnnounce s
  | .powerWindowEnd => Sys2Proof.Machine.execPowerWindowEnd s
  | .clockStepChange => Sys2Proof.Machine.execClockStepChange s
  | .dieFence => Sys2Proof.Machine.execDieFence s
  | .keyDieRedesignation => Sys2Proof.Machine.execKeyDieRedesignation s
  | .linkDown => Sys2Proof.Machine.execLinkDown s
  | .linkTraining => Sys2Proof.Machine.execLinkTraining s
  | .flitReplay => Sys2Proof.Machine.execFlitReplay s
  | .remoteRequestTimeout => Sys2Proof.Machine.execRemoteRequestTimeout s
  | .remoteRequestArrival => Sys2Proof.Machine.execRemoteRequestArrival s
  | .switchLossDeclared => Sys2Proof.Machine.execSwitchLossDeclared s
  | .mirrorFailoverComplete => Sys2Proof.Machine.execMirrorFailoverComplete s
  | .sheetTableUpdate => Sys2Proof.Machine.execSheetTableUpdate s
  | .patrolRewrite => Sys2Proof.Machine.execPatrolRewrite s
  | .packageReset => Sys2Proof.Machine.execPackageReset s
  | .nonRocePacket => Sys2Proof.Machine.execNonRocePacket s
  | .rdmaRead => Sys2Proof.Machine.execRdmaRead s
  | .rdmaWrite => Sys2Proof.Machine.execRdmaWrite s
  | .tenset => Sys2Proof.Machine.execTenset s
  | .rngset => Sys2Proof.Machine.execRngset s
  | .inval => Sys2Proof.Machine.execInval s
  | .invalReply => Sys2Proof.Machine.execInvalReply s
  | .pinq => Sys2Proof.Machine.execPinq s
  | .keyload => Sys2Proof.Machine.execKeyload s
  | .keydrop => Sys2Proof.Machine.execKeydrop s
  | .keydropReply => Sys2Proof.Machine.execKeydropReply s
  | .quota => Sys2Proof.Machine.execQuota s
  | .qpset => Sys2Proof.Machine.execQpset s
  | .lsem => Sys2Proof.Machine.execLsem s
  | .status => Sys2Proof.Machine.execStatus s
  | .attest => Sys2Proof.Machine.execAttest s
  | .pwrq => Sys2Proof.Machine.execPwrq s
  | .pwrset => Sys2Proof.Machine.execPwrset s
  | .errq => Sys2Proof.Machine.execErrq s
  | .fwload => Sys2Proof.Machine.execFwload s
  | .reset => Sys2Proof.Machine.execReset s
  | .regset => Sys2Proof.Machine.execRegset s
  | .regsetReply => Sys2Proof.Machine.execRegsetReply s
  | .illegalCodeWord => Sys2Proof.Machine.execIllegalCodeWord s
  | .unassignedOpcode => Sys2Proof.Machine.execUnassignedOpcode s
  | .contextLost => Sys2Proof.Machine.execContextLost s
  | .resetnAssert => Sys2Proof.Machine.execResetnAssert s
  | .unknownManagementOpc => Sys2Proof.Machine.execUnknownManagementOpc s

end Sys2Proof.Machine
end

