-- ==== Sys2Proof/Machine/Step.lean ====
section
/-! DEFINITION. The step: the next event of the agenda, the bundle of the next tile, or the clock edge of the agent in turn. -/

namespace Sys2Proof.Machine

/-- Run the operations of a bundle one after another in one mode. -/
noncomputable def runOps (mode : IssueMode) : List Op → State → Host.Outcome State Fault Refusal
  | [], s => .next s
  | o :: os, s =>
    match exec (resolve s o.instr) (s.atOp o.slot mode) with
    | .next s' => runOps mode os s'
    | r => r

/-- The bundle in issue: its one operation whole, or its operations judged together and then committed (02 R46, R48). -/
noncomputable def runBundle (ops : List Op) (s : State) : Host.Outcome State Fault Refusal :=
  match ops with
  | [o] => exec (resolve s o.instr) (s.atOp o.slot .whole)
  | _ =>
    match runOps .judge ops s with
    | .next j =>
      match firstFail j.allFails with
      | some f => .next (takeFail f j)
      | none =>
        match runOps .commit ops j with
        | .next q => .next (finishBundle q)
        | r => r
    | r => r

/-- The failure a context's bundle would meet in this cycle, if any. -/
noncomputable def State.wouldFail (s : State) (is : Issue) (ops : List Op) : Option Fail :=
  match runOps .judge ops (s.open is) with
  | .next j => firstFail j.allFails
  | _ => none

/-- The timer trap that a context's next bundle raises: the bundle's failures of phases 2 to 5 come first, and ALIGN's pause does not
keep it off (02 R46, 10 R259, 13 R358). -/
noncomputable def State.overdueEvent (s : State) (is : Issue) (ops : List Op) : Option Instr :=
  match (s.ctx is.tile is.ctx).overdue is.hdr.rgn with
  | none => none
  | some i =>
    match s.wouldFail is ops with
    | some f => if f.phase < phOther && f.kind != .pause then none else some i
    | none => some i

/-- A context is ready in this cycle, or what holds it (11 R293). -/
noncomputable def State.readiness (s : State) (t c : Nat) : Bool × Option Fail :=
  match s.attempt t c with
  | .none => (false, none)
  | .run is ops =>
    match s.overdueEvent is ops, s.wouldFail is ops with
    | none, some f => if f.holds (s.ctx t c) then (false, some f) else (true, none)
    | _, _ => (true, none)
  | _ => (true, none)

/-- The contexts of a tile are Ready, Blocked or Paused as their next bundles stand, and those that are ready. -/
noncomputable def State.survey (s : State) (t : Nat) : State × List Nat :=
  [0, 1, 2, 3].foldl (fun (a : State × List Nat) c =>
    match s.readiness t c with
    | (true, _) => (a.1.modCtx t c Ctx.released, a.2 ++ [c])
    | (false, some f) => (a.1.heldBy t c f, a.2)
    | (false, none) => a) (s, [])

/-- The chosen context takes issue. -/
noncomputable def State.issueCtx (s : State) (t c : Nat) : Host.Outcome State Fault Refusal :=
  let took := fun (s : State) => s.modTile t fun x => x.tookIssue c (s.tickOf t)
  let event := fun i args => exec i { took s with focus := { die := dieOf t, tile := t, ctx := c, args := args } }
  match s.attempt t c with
  | .none => .next s
  | .fails f => .next (takeFail f { took s with issue := openIssue t c (s.ctx t c) 0 0 0 })
  | .event i args => event i args
  | .literal => .next ((took s).modCtx t c fun k => { k with literalPaid := true })
  | .run is ops =>
    match s.overdueEvent is ops with
    | some i => event i []
    | none => runBundle ops (s.open is)

/-- A tile's cycle: its selector chooses, and the chosen context issues (11 R294). -/
noncomputable def State.issueTile (s : State) (t : Nat) : Host.Outcome State Fault Refusal :=
  let (s, ready) := s.survey t
  let x := s.tile t
  if x.exclusive.isNone && x.quantumOver (s.tickOf t) ready (s.opensRegion t x.lastCtx) then
    exec .quantumExpiry { s with focus := { die := dieOf t, tile := t, ctx := x.lastCtx } }
  else
    let s := { s with stage := .issue (t + 1) }
    match x.select (s.tickOf t) ready with
    | none => .next s
    | some c => s.issueCtx t c

/-- One step of the machine. -/
noncomputable def step (s : State) : Host.Outcome State Fault Refusal :=
  match s.agenda with
  | j :: rest => exec j.instr { s with agenda := rest, focus := j.focus }
  | [] =>
    match s.stage with
    | .grant => .next s.grantCycle
    | .issue lo =>
      match s.nextTile lo with
      | some t => s.issueTile t
      | none => .next { s with stage := .post, agenda := s.lateEvents }
    | .post => .next s.lastGrants
    | .clock => .next s.nextCycle

/-! ### Placing an instruction where the next step fetches -/

/-- The bundle that holds a placed word in its slot: F for 24 bits, C for 32. -/
noncomputable def placedBundle (nbits w : Nat) : Nat :=
  let sel := match decodeTableWord nbits w with | some i => !i.selectors.isEmpty | none => false
  let ports := if sel then [16, 23, 30, 37, 44, 51].foldl (fun a i => a + 64 * 2 ^ i) 0 else 0
  ports + (if nbits = 24 then w % 2 ^ 24 * 2 ^ 328 else w % 2 ^ 32 * 2 ^ 352)

/-- The state with an instruction placed where the next step fetches: context 0 of tile 0, entry 0 of its dictionary (log 4). -/
noncomputable def State.withFetchWord (s : State) (nbits w : Nat) : State :=
  let x := s.tile 0
  let k := x.ctx 0
  let d := if k.dictlen = 0 then 1 else k.dictlen
  let k := { k with st := .ready, pc := 0, pcOver := false, dictbase := 0, dictlen := d, literalPaid := false, pendingStep := false,
                    inflight := [], preempt := none, inFtr := false, lockLeft := none, regionTimer := 0 }
  let x := { x with
    ctxs := [(0, k)]
    code := FMap.insert x.code 0 0
    dict := FMap.insert x.dict 0 (BitVec.ofNat 384 (placedBundle nbits w))
    codeBad := []
    dictBad := [] }
  { s with tiles := FMap.insert s.tiles 0 x, turn := 0, agenda := [], inbox := [], stage := .issue 0 }

end Sys2Proof.Machine
end

