-- ==== Sys2Proof/Safety.lean ====
section
/-! DEFINITION. What counts as a safe run, and the terms in which the statements speak of one step: a bundle that may issue, what it
leaves when it went, and what it leaves when it did not. -/

namespace Sys2Proof

open Machine

/-! ### Runs -/

/-- The machine answers a next state. -/
def CanStep (s : State) : Prop := ∃ t, step s = .next t

/-- The machine takes `n` steps without a fault or a refusal. -/
def SafeFor (n : Nat) (s : State) : Prop := ∃ t, core.run n s = .next t

/-- Safe for any number of steps. -/
def Safe (s : State) : Prop := ∀ n, SafeFor n s

/-! ### Encodings -/

/-- The row of the opcode table that a slot word decodes to when several rows share it: BURNISH by the MODE of its control word and UNPARK
by its action are told apart when they run (07 R174, 13 R351). -/
noncomputable def decodesTo : Instr → Instr
  | .burnishRecipeLoad f => .burnishUpdate f
  | .unparkResume f => .unparkReturn f
  | .unparkRedirect f => .unparkReturn f
  | .unparkEnd f => .unparkReturn f
  | i => i

/-- Bits of a slot (02 Table 2.2). -/
def SlotKind.width : SlotKind → Nat
  | .v => 64
  | .f => 24
  | .c => 32
  | _ => 40

namespace Machine

/-! ### The forms of each slot -/

/-- The forms of the S layout, in the order of the opcode table. -/
def scalarForms : List (SSlot → Instr) :=
  [.add, .sub, .and, .or, .xor, .andn, .orn, .xnor, .shl, .shr, .sar, .rol, .ror, .shadd, .abs, .mul, .mulhI, .mulhN, .mulhIn,
   .mulwI, .mulwN, .divI, .divN, .remI, .remN, .minI, .minN, .maxI, .maxN, .addsI, .addsN, .subsI, .subsN, .clz, .ctz, .popc,
   .brev, .extrI, .extrN, .insr, .sextI8, .sextI16, .sextI32, .cmpEq, .cmpNe, .cmpLtI, .cmpLeI, .cmpGtI, .cmpGeI, .cmpLtN, .cmpLeN,
   .cmpGtN, .cmpGeN, .tstAny, .tstNone, .sel, .movz, .movk, .movn, .pand, .por, .pxor, .pandn, .pmovs, .smovp, .csrr, .csrw, .csrs,
   .csrc, .ktime]

/-- The forms of the L layout, in the order of the opcode table. -/
def localForms : List (LSlot → Instr) :=
  [.ldI8, .ldN8, .ldI16, .ldN16, .ldI32, .ldN32, .ld64, .ldN32Acq, .ld64Acq, .st8, .st16, .st32, .st64, .st32Rel, .st64Rel, .lda,
   .ldaAcq, .sta, .staRel, .aadd, .aaddAcq, .aaddRel, .aaddAr, .aswp, .aswpAcq, .aswpRel, .aswpAr, .vld, .vlds, .vst, .vsts]

/-- The forms of the V layout, in the order of the opcode table. -/
def vectorForms : List (VSlot → Instr) :=
  [.vaddF32, .vaddF16, .vaddBf16, .vaddI32, .vaddI16, .vaddI8, .vsubF32, .vsubF16, .vsubBf16, .vsubI32, .vsubI16, .vsubI8,
   .vmulF32, .vmulF16, .vmulBf16, .vmulI32, .vmulI16, .vfmaF32, .vfmaF16, .vfmaBf16, .vminF32, .vminF16, .vminBf16, .vminI32,
   .vmaxF32, .vmaxF16, .vmaxBf16, .vmaxI32, .vaddsI32, .vaddsI16, .vaddsI8, .vaddsN8, .vsubsI32, .vsubsI16, .vsubsI8, .vsubsN8,
   .vmulhI32, .vmulhN32, .vabsF32, .vabsI32, .vnegF32, .vnegI32, .vrcp, .vrsq, .vexp2, .vlog2, .vsqrt, .vand, .vor, .vxor, .vandn,
   .vshl, .vshr, .vsar, .vclz, .vpopc, .vcmpF32Eq, .vcmpF32Ne, .vcmpF32Lt, .vcmpF32Le, .vcmpF32Un, .vcmpI32Eq, .vcmpI32Ne,
   .vcmpI32Lt, .vcmpI32Le, .vcmpN32Lt, .vcmpN32Le, .vsel, .mand, .mor, .mxor, .mandn, .mtos, .stom, .vraddF32, .vraddI32,
   .vrmaxF32, .vrmaxI32, .vrminF32, .vrminI32, .vperm, .vrot, .vbcast, .vext, .vins, .vmov, .vmovi, .vcvtF16F32, .vcvtBf16F32,
   .vcvtF32F16, .vcvtF32Bf16, .vcvtI32F32, .vcvtN32F32, .vcvtF32I32, .vcvtF32N32, .vtologLb8, .vtologLb6, .vtologLb4, .vtologLm16,
   .vfromlogLb8, .vfromlogLb6, .vfromlogLb4, .vfromlogLm16, .vbpackLb8, .vbpackLb6, .vbpackLb4, .vbunpLb8, .vbunpLb6, .vbunpLb4,
   .vtordwF32, .vtordwA64, .vfromrdwF32, .vfromrdwA64, .vaddrdw, .vcvtaF32, .vcvtaA64]

/-- The forms of the M layout, in the order of the opcode table. -/
def matrixForms : List (MSlot → Instr) :=
  [.wload, .wloadw, .streamAdd, .streamOvw, .streamTAdd, .streamTOvw, .drain, .drainRdw, .accclr, .anchor, .oclaim, .orelease,
   .fmtsel, .accpin, .accpinClr]

/-- The forms of the X layout, in the order of the opcode table. -/
noncomputable def crossForms : List (XSlot → Instr) :=
  [.copy, .gather, .scatter, .get, .put, .layreg, .laydrop, .wmset, .smalloc, .smfree, .smquery, .smld, .smldAcq, .smst, .smstRel,
   .smatomAdd, .smatomSwap, .smatomCas, .smatomMinI, .smatomMaxI, .smatomMinN, .smatomMaxN, .burnishUpdate, .burnishRecipeLoad]

/-- The forms of the F layout, in the order of the opcode table. -/
noncomputable def fabricForms : List (FSlot → Instr) :=
  [.send, .recv, .recvaddReg, .recvaddAcc, .relay]

/-- The forms of the C-J layout, in the order of the opcode table. -/
noncomputable def jumpForms : List (CJump → Instr) :=
  [.br, .call]

/-- The forms of the C-R layout, in the order of the opcode table. -/
noncomputable def controlForms : List (CSlot → Instr) :=
  [.brpT, .brpF, .bri, .calli, .ret, .loop, .lend, .semw, .sems, .phregSig, .phregWait, .phregSw, .pharr, .phwait, .phdrop, .fence,
   .yield, .halt, .align, .ftrbeg, .ftrend, .trap, .eret, .eres, .park, .unparkReturn, .unparkResume, .unparkRedirect, .unparkEnd]

/-! ### A bundle of one operation -/

/-- The bundle in issue is one operation, judged and committed at once, of which nothing has been found or done yet: what `step` hands
to a meaning for a bundle whose other slots are NOPs. No FENCE of the context is still waiting for an access to be performed (08 R210). -/
structure Opens (s : State) : Prop where
  whole : s.issue.mode = .whole
  fails : s.issue.fails = []
  lands : s.issue.lands = []
  banks : s.issue.banks = []
  fabBanks : s.issue.fabBanks = []
  semLeft : s.issue.semLeft = none
  target : s.issue.target = none
  nonRep : s.issue.nonRep = false
  sent : s.issue.sent = none
  fenced : s.fenceFails = []

/-- A result as it goes into flight in a cycle: it lands its latency later (05 R118). -/
def Result.flight (now : Nat) (r : Result) : Landing := { id := 0, due := now + r.lat, dest := r.dest, flags := r.flags }

/-- The results of a bundle with their identities, from one number on; one that waits for a remote value bears its request's. -/
def identified : Nat → List Landing → List Landing
  | _, [] => []
  | n, l :: ls => (if l.waits then l else { l with id := n }) :: identified (n + 1) ls

/-- Nothing but the operation itself keeps its bundle from issuing: it touches no register held for a late value (09 R234), its results
meet none in flight and find a write port (02 R37), no engine uses its scratchpad banks in the next cycle (08 R194). -/
structure Unhindered (s : State) (ls : List Landing) (banks : List Nat) : Prop where
  held : ∀ r ∈ s.cur.heldAt s.now, (∀ p ∈ s.issue.hdr.ports, p.toNat ≠ 64 + r) ∧ s.issue.td ≠ r ∧ ∀ l ∈ ls, l.dest.key ≠ some (0, r)
  ports : portFails s.cur.inflight (ls.map fun l => (s.issue.slot, l)) = []
  banks : ∀ b ∈ banks, (b, s.now + 1) ∉ s.curTile.bankRes ∧
    ((b, s.now + 1) ∈ s.curTile.granted → s.issue.hdr.blk = true ∧ (b = s.issue.hdr.blka.toNat ∨ b = s.issue.hdr.blkb.toNat))

/-- An L-slot access of `w` bytes at `x` of the issuing tile's scratchpad may go: no acquire of the context stands before it, it is
aligned and inside the scratchpad, and no watermark holds its bytes back (09 R231, 08 R207, R211). -/
structure ScratchOpen (s : State) (x : Word) (w : Nat) : Prop where
  order : acquireCheck s = []
  aligned : x.toNat % w = 0
  inside : x.toNat + w ≤ 0x400000
  written : s.curTile.heldBytes s.issue.tile x.toNat w = false

/-- A vector register may be named: its effective number is below VALLOC and it is present (06 R134, R135, R138). -/
structure Named (k : Ctx) (n : Nat) : Prop where
  below : n < 64 ∧ k.veff n < k.valloc.toNat
  present : k.veff n ∉ k.absent

/-! ### What a step leaves alone -/

/-- A context apart from its place in the program, its results in flight and the counts of its progress: every register, every
control, trap and accumulator register, links, loops, phaser slots, layouts, watched ranges. -/
def Ctx.lasting (k : Ctx) : Ctx :=
  { k with pc := 0, pcOver := false, inflight := [], absent := [], literalPaid := false, walks := [], blockedFor := 0,
           nonRepeatable := false, pendingStep := false, lockLeft := none }

/-- A tile apart from its contexts and the bank lock: its memories, accumulators, semaphores, queues, FIFOs. -/
def Tile.lasting (x : Tile) : Tile := { x with ctxs := [], lock := none }

/-- The machine apart from its tiles and the record of the bundle in issue. -/
def State.lasting (s : State) : State := { s with tiles := [], issue := {}, nextId := 0 }

/-- Nothing differs but the context in issue, its tile's bank lock, and the record of the bundle. -/
structure OnlyContext (s t : State) : Prop where
  machine : t.lasting = s.lasting
  tiles : ∀ n, n ≠ s.issue.tile → t.tile n = s.tile n
  tile : (t.tile s.issue.tile).lasting = s.curTile.lasting
  ctxs : ∀ c, c ≠ s.issue.ctx → t.ctx s.issue.tile c = s.ctx s.issue.tile c

/-- The bundle went: the context goes on at `next`, the results `ls` are in flight behind those that were, and nothing else has changed. -/
structure Went (s t : State) (ls : List Landing) (next : Nat) (nonRep : Bool) : Prop extends OnlyContext s t where
  ctx : (t.ctx s.issue.tile s.issue.ctx).lasting = s.cur.lasting
  pc : (t.ctx s.issue.tile s.issue.ctx).pc = BitVec.ofNat 17 next
  pcOver : (t.ctx s.issue.tile s.issue.ctx).pcOver = decide (2 ^ 17 ≤ next)
  inflight : (t.ctx s.issue.tile s.issue.ctx).inflight = s.cur.inflight ++ identified s.nextId ls
  repeatable : (t.ctx s.issue.tile s.issue.ctx).nonRepeatable = (s.cur.nonRepeatable || nonRep)

/-- The bundle went on to the next one with the results `rs`. -/
abbrev Issued (s t : State) (rs : List Result) : Prop := Went s t (rs.map (Result.flight s.now)) s.issue.nextPc false

/-- A context apart from what a trap of it changes before its handler is entered (13 R345). -/
def Ctx.registers (k : Ctx) : Ctx :=
  { k.lasting with st := .ready, pendingTrap := none, infl := 0, inFtr := false, ftrPorts := [] }

/-- The bundle did not issue: its context takes a precise trap of a cause, with an address (13 R342 to R345); no register, control
register or memory has changed. -/
structure Trapped (s t : State) (cause : Nat) (addr : Word) : Prop extends OnlyContext s t where
  ctx : (t.ctx s.issue.tile s.issue.ctx).registers = s.cur.registers
  trapping : (t.ctx s.issue.tile s.issue.ctx).st = .trapping
  inflight : (t.ctx s.issue.tile s.issue.ctx).inflight = s.cur.inflight
  record : (t.ctx s.issue.tile s.issue.ctx).pendingTrap =
    some ({ kind := .precise, cause := BitVec.ofNat 8 cause, pc := s.issue.pc, slot := BitVec.ofNat 4 s.issue.slot, addr := addr
            ret := s.issue.pc }, s.now)

/-- The bundle did not issue: its context is Blocked, and nothing else has changed (11 R293). -/
structure Held (s t : State) (why : BlockCause) : Prop extends OnlyContext s t where
  ctx : t.ctx s.issue.tile s.issue.ctx = { s.cur with st := .blocked why }
  lock : (t.tile s.issue.tile).lock = s.curTile.lock

/-- Every memory of the machine has its canonical form: HBM, the flash and the running image, scratchpads and operand memories, weight
stores, sheets (log 2). -/
def State.memoriesWf (s : State) : Bool :=
  s.hbm.wf && s.boot.flash.wf && s.boot.running.wf && s.tiles.all (fun e => e.2.scratch.wf && e.2.om.wf)
    && s.dies.all (fun e => e.2.wstore.wf) && s.switches.all fun w => w.2.sheets.all fun h => h.2.data.wf

/-! ### Exact rationals, for the formats -/

/-- Whether a magnitude strictly between two neighbours rounds to the greater one: `odd` says whether the lesser has an odd code, `d` is
the draw (03 R76, R77, R79). -/
def RoundsAway (mode : RMode) (neg odd : Bool) (d : Nat) (lo x hi : ℚ) : Prop :=
  match mode with
  | .rne => lo + hi < 2 * x ∨ (2 * x = lo + hi ∧ odd = true)
  | .rtz => False
  | .rdn => neg = true
  | .rup => neg = false
  | .stp => (d : ℚ) * (hi - lo) < (x - lo) * 65536

/-- The magnitude of a pattern without its sign, in the binary format of `p` significand bits and least exponent `emin` (03 R69); the
pattern of infinity stands for the magnitude that would come next. -/
def binaryMag (p : Nat) (emin : Int) (pat : Nat) : ℚ :=
  if pat < 2 ^ (p - 1) then pat * 2 ^ (emin - (p - 1)) else (2 ^ (p - 1) + (pat % 2 ^ (p - 1) : Nat)) * 2 ^ (emin - (p - 1) + (pat / 2 ^ (p - 1) : Nat) - 1)

/-- Lin(g, n) (03 R62). -/
def linMag (n : Nat) (g : Int) : ℚ := gridTab n (g % n).toNat * 2 ^ (g / n - 23)

/-! ### Forms of the vector slot -/

/-- What a destination unit governed by mask bit `l` takes of the value a form computes for it: nothing when it is not written
(06 R141). -/
def unitOf (s : State) (f : VSlot) (l : Nat) (x : LaneVal) : Option LaneVal :=
  let m := s.cur.mreg (s.cur.meff f.mkr.toNat)
  if f.me = 0#1 then some x
  else if m.poison.getLsbD l then some { x with poison := true }
  else if m.bits.getLsbD l then some x
  else if f.mz = 1#1 then some {} else none

/-- The flags of the enabled, unpoisoned units among the first `n` (06 R144). -/
def unitFlags (s : State) (f : VSlot) (n : Nat) (x : Nat → LaneVal) (fl : Nat → Flags) : Flags :=
  let m := s.cur.mreg (s.cur.meff f.mkr.toNat)
  orFlags ((List.range n).map fun l =>
    if (f.me = 0#1 ∨ (m.bits.getLsbD l = true ∧ m.poison.getLsbD l = false)) ∧ (x l).poison = false then fl l else 0)

/-- The units of one destination register. -/
def lanesOut (s : State) (f : VSlot) (x : Nat → LaneVal) : List (Option LaneVal) := (List.range 64).map fun l => unitOf s f l (x l)

/-- Element `j` of `w` bits of lane `l` of operand B: of VB, or the low bits of the scalar that SS selects (06 R140). -/
def bElem (s : State) (f : VSlot) (w l j : Nat) : BitVec w :=
  if f.vs = 1#1 then (s.vOp f).val.truncate w else ((s.vsrc f.vb).lane l).val.extractLsb' (w * j) w

/-- The poison of lane `l` of operand B. -/
def bPoison (s : State) (f : VSlot) (l : Nat) : Bool :=
  if f.vs = 1#1 then (s.vOp f).poison else ((s.vsrc f.vb).lane l).poison

/-- The draw of a destination element (06 R144). -/
def drawOf (s : State) (tag l : Nat) : Nat := stippleDraw s.cur.seed s.cur.stepReg tag l

/-- The registers of a form with a vector destination, VA and operand B may be named. -/
def NamesBinary (s : State) (f : VSlot) : Prop :=
  Named s.cur f.vd.toNat ∧ Named s.cur f.va.toNat ∧ (f.vs = 0#1 → Named s.cur f.vb.toNat)

/-- The members of a group of registers may be named, and its first register is aligned (06 R136). -/
def NamesGroup (s : State) (n size : Nat) : Prop :=
  n % (if size = 3 then 4 else size) = 0 ∧ ∀ i, i < size → Named s.cur (n + i)

/-- A form over the elements of `w` bits of VA, operand B and perhaps VC (06 R133, R140, R141, R143, R144): where its bundle may issue,
it puts in flight for VD what the operation makes of the elements of each index, lane by lane poisoned as the sources are, with the
flags of the enabled, unpoisoned units. -/
def ElementForm (i : VSlot → Instr) (w lat : Nat) (useC : Bool)
    (op : RMode → Nat → BitVec w → BitVec w → BitVec w → BitVec w × Flags) : Prop :=
  ∀ (f : VSlot) (s : State), Opens s → NamesBinary s f → (useC = true → Named s.cur f.vc.toNat) →
    let a := s.vsrc f.va
    let c := s.vsrc f.vc
    let n := 32 / w
    let el := fun l j => op (RMode.ofCode f.rm.toNat) (drawOf s (n * l + j) l) ((a.lane l).val.extractLsb' (w * j) w) (bElem s f w l j)
      ((c.lane l).val.extractLsb' (w * j) w)
    ∃ x : Nat → LaneVal,
      (∀ l, l < 64 → (x l).poison = ((a.lane l).poison || bPoison s f l || (useC && (c.lane l).poison)) ∧
        ∀ j, j < n → (x l).val.extractLsb' (w * j) w = (el l j).1) ∧
      let rs : List Result := [⟨lat, .vector (s.cur.veff f.vd.toNat) (lanesOut s f x),
        unitFlags s f 64 x fun l => orFlags ((List.range n).map fun j => (el l j).2)⟩]
      (Unhindered s (rs.map (Result.flight s.now)) [] → ∃ t, exec (i f) s = .next t ∧ Issued s t rs)

/-- A form over the lanes of VA alone, in the same terms. -/
def LaneForm (i : VSlot → Instr) (lat : Nat) (op : RMode → Nat → Lane → Lane × Flags) : Prop :=
  ∀ (f : VSlot) (s : State), Opens s → Named s.cur f.vd.toNat → Named s.cur f.va.toNat →
    let a := s.vsrc f.va
    let el := fun l => op (RMode.ofCode f.rm.toNat) (drawOf s l l) (a.lane l).val
    let x : Nat → LaneVal := fun l => { val := (el l).1, poison := (a.lane l).poison }
    let rs : List Result := [⟨lat, .vector (s.cur.veff f.vd.toNat) (lanesOut s f x), unitFlags s f 64 x fun l => (el l).2⟩]
    Unhindered s (rs.map (Result.flight s.now)) [] → ∃ t, exec (i f) s = .next t ∧ Issued s t rs

/-- A compare of the lanes of VA and operand B into mask VD (06 R149): bit l by the rule of a destination unit. -/
def CompareForm (i : VSlot → Instr) (op : Lane → Lane → Bool × Flags) : Prop :=
  ∀ (f : VSlot) (s : State), Opens s → Named s.cur f.va.toNat → (f.vs = 0#1 → Named s.cur f.vb.toNat) →
    let a := s.vsrc f.va
    let el := fun l => op (a.lane l).val (bElem s f 32 l 0)
    let x : Nat → LaneVal := fun l => { val := if (el l).1 then 1 else 0, poison := (a.lane l).poison || bPoison s f l }
    ∃ (written : Word) (v : MaskReg),
      (∀ l, l < 64 → match unitOf s f l (x l) with
        | some u => written.getLsbD l = true ∧ v.bits.getLsbD l = u.val.getLsbD 0 ∧ v.poison.getLsbD l = u.poison
        | none => written.getLsbD l = false) ∧
      let rs : List Result := [⟨2, .mask (s.cur.meff f.vd.toNat) written v, unitFlags s f 64 x fun l => (el l).2⟩]
      (Unhindered s (rs.map (Result.flight s.now)) [] → ∃ t, exec (i f) s = .next t ∧ Issued s t rs)

/-- A copy of source lanes into VD (06 R153). -/
def CopyForm (i : VSlot → Instr) (lat : Nat) (named : State → VSlot → Prop) (src : State → VSlot → Nat → LaneVal) : Prop :=
  ∀ (f : VSlot) (s : State), Opens s → Named s.cur f.vd.toNat → named s f →
    let rs : List Result := [⟨lat, .vector (s.cur.veff f.vd.toNat) (lanesOut s f (src s f)), 0⟩]
    Unhindered s (rs.map (Result.flight s.now)) [] → ∃ t, exec (i f) s = .next t ∧ Issued s t rs

/-- Lane `l` takes part in a reduction (06 R141). -/
def TakesPart (s : State) (f : VSlot) (l : Nat) : Prop :=
  let m := s.cur.mreg (s.cur.meff f.mkr.toNat)
  f.me = 0#1 ∨ m.bits.getLsbD l = true ∨ m.poison.getLsbD l = true

end Machine

end Sys2Proof
end

