-- ==== Sys2Proof/Certificates/Slice0/Obligations.lean ====
section
/-! DEFINITION. The statements for the provers, by the numbered rules of the spec. -/

open Sys2Proof Sys2Proof.Machine

set_option linter.unusedVariables false

/-- 05 R117, R118, R121 to R123, R125, Table 5.2: the two-operand S forms. -/
def Obligations.ScalarBinaryResults : Prop :=
  ∀ e ∈ ([
      (.add, 1, fun a b => a + b), (.sub, 1, fun a b => a - b),
      (.and, 1, fun a b => a &&& b), (.or, 1, fun a b => a ||| b), (.xor, 1, fun a b => a ^^^ b),
      (.andn, 1, fun a b => a &&& ~~~b), (.orn, 1, fun a b => a ||| ~~~b), (.xnor, 1, fun a b => ~~~(a ^^^ b)),
      (.shl, 1, fun a b => BitVec.ofNat 64 (a.toNat * 2 ^ (b.toNat % 64))),
      (.shr, 1, fun a b => BitVec.ofNat 64 (a.toNat / 2 ^ (b.toNat % 64))),
      (.sar, 1, fun a b => BitVec.ofInt 64 (a.toInt / 2 ^ (b.toNat % 64))),
      (.rol, 1, fun a b => a <<< (b.toNat % 64) ||| a >>> (64 - b.toNat % 64)),
      (.ror, 1, fun a b => a >>> (b.toNat % 64) ||| a <<< (64 - b.toNat % 64)),
      (.shadd, 1, fun a b => a + 8 * b), (.mul, 3, fun a b => BitVec.ofNat 64 (a.toNat * b.toNat)),
      (.mulhI, 4, fun a b => BitVec.ofInt 64 (a.toInt * b.toInt / 2 ^ 64)),
      (.mulhN, 4, fun a b => BitVec.ofNat 64 (a.toNat * b.toNat / 2 ^ 64)),
      (.mulhIn, 4, fun a b => BitVec.ofInt 64 (a.toInt * b.toNat / 2 ^ 64)),
      (.divI, 24, fun a b => if b = 0 then -1 else BitVec.ofInt 64 (a.toInt.tdiv b.toInt)),
      (.divN, 24, fun a b => if b = 0 then -1 else BitVec.ofNat 64 (a.toNat / b.toNat)),
      (.remI, 24, fun a b => if b = 0 then a else BitVec.ofInt 64 (a.toInt - b.toInt * a.toInt.tdiv b.toInt)),
      (.remN, 24, fun a b => if b = 0 then a else BitVec.ofNat 64 (a.toNat % b.toNat)),
      (.minI, 1, fun a b => if b.toInt < a.toInt then b else a), (.minN, 1, fun a b => if b.toNat < a.toNat then b else a),
      (.maxI, 1, fun a b => if a.toInt < b.toInt then b else a), (.maxN, 1, fun a b => if a.toNat < b.toNat then b else a),
      (.extrI, 1, fun a b =>
        let lo := b.toNat % 64
        let hi := min (lo + b.toNat / 256 % 64) 63
        BitVec.ofInt 64 (signExt (a.toNat / 2 ^ lo) (hi - lo + 1))),
      (.extrN, 1, fun a b =>
        let lo := b.toNat % 64
        let hi := min (lo + b.toNat / 256 % 64) 63
        BitVec.ofNat 64 (a.toNat / 2 ^ lo % 2 ^ (hi - lo + 1)))] : List ((SSlot → Instr) × Nat × (Word → Word → Word))),
    ∀ (f : SSlot) (s : State), Opens s → s.guard f.g f.gn = true →
      let a := s.sOp f f.sa
      let b := s.sOp f f.sb
      let rs : List Result := [⟨e.2.1, .scalar f.d.toNat { val := e.2.2 a.val b.val, poison := a.poison || b.poison }, 0⟩]
      Unhindered s (rs.map (Result.flight s.now)) [] → ∃ t, exec (e.1 f) s = .next t ∧ Issued s t rs

/-- 05 R116, R117, R118, R122, Table 5.2: the one-operand S forms, their results by what they must satisfy; a 128-bit product occupies
an even-aligned pair. -/
def Obligations.ScalarUnaryAndPairResults : Prop :=
  (∀ e ∈ ([
      (.abs, fun a r => r.toNat = a.toInt.natAbs),
      (.clz, fun a r => r.toNat ≤ 64 ∧ a.toNat < 2 ^ (64 - r.toNat) ∧ (r.toNat < 64 → 2 ^ (63 - r.toNat) ≤ a.toNat)),
      (.ctz, fun a r => r.toNat ≤ 64 ∧ a.toNat % 2 ^ r.toNat = 0 ∧ (r.toNat < 64 → a.getLsbD r.toNat = true)),
      (.popc, fun a r => r.toNat = ((List.range 64).filter fun i => a.getLsbD i).length),
      (.brev, fun a r => ∀ i, i < 64 → r.getLsbD i = a.getLsbD (63 - i)),
      (.sextI8, fun a r => r = (a.truncate 8).signExtend 64), (.sextI16, fun a r => r = (a.truncate 16).signExtend 64),
      (.sextI32, fun a r => r = (a.truncate 32).signExtend 64)] : List ((SSlot → Instr) × (Word → Word → Prop))),
    ∀ (f : SSlot) (s : State), Opens s → s.guard f.g f.gn = true →
      let a := s.sOp f f.sa
      ∃ r, e.2 a.val r ∧
        let rs : List Result := [⟨1, .scalar f.d.toNat { val := r, poison := a.poison }, 0⟩]
        (Unhindered s (rs.map (Result.flight s.now)) [] → ∃ t, exec (e.1 f) s = .next t ∧ Issued s t rs)) ∧
  ∀ e ∈ ([(.mulwI, fun a b => a.toInt * b.toInt), (.mulwN, fun a b => (a.toNat * b.toNat : Nat))] :
        List ((SSlot → Instr) × (Word → Word → Int))),
      ∀ (f : SSlot) (s : State), Opens s → s.guard f.g f.gn = true →
        let a := s.sOp f f.sa
        let b := s.sOp f f.sb
        let p := a.poison || b.poison
        let rs : List Result :=
          [⟨4, .scalar f.d.toNat { val := BitVec.ofInt 64 (e.2 a.val b.val), poison := p }, 0⟩,
           ⟨4, .scalar (f.d.toNat + 1) { val := BitVec.ofInt 64 (e.2 a.val b.val / 2 ^ 64), poison := p }, 0⟩]
        Unhindered s (rs.map (Result.flight s.now)) [] →
          (f.d.toNat % 2 = 0 → ∃ t, exec (e.1 f) s = .next t ∧ Issued s t rs) ∧
          (f.d.toNat % 2 = 1 → ∃ t, exec (e.1 f) s = .next t ∧ Trapped s t 0x04 (f.d.zeroExtend 64))

/-- 05 R124, R117: saturation, and the flag of a clamp that acts. -/
def Obligations.SaturatingForms : Prop :=
  ∀ e ∈ ([(.addsI, true, false), (.addsN, false, false), (.subsI, true, true), (.subsN, false, true)] :
      List ((SSlot → Instr) × Bool × Bool)),
    ∀ (f : SSlot) (s : State), Opens s → s.guard f.g f.gn = true →
      let a := s.sOp f f.sa
      let b := s.sOp f f.sb
      let v : Word → Int := fun x => if e.2.1 then x.toInt else x.toNat
      let lo : Int := if e.2.1 then -2 ^ 63 else 0
      let hi : Int := if e.2.1 then 2 ^ 63 - 1 else 2 ^ 64 - 1
      let z := if e.2.2 then v a.val - v b.val else v a.val + v b.val
      let p := a.poison || b.poison
      let rs : List Result := [⟨1, .scalar f.d.toNat { val := BitVec.ofInt 64 (max lo (min hi z)), poison := p },
        if p = false ∧ (z < lo ∨ hi < z) then flSAT else 0⟩]
      Unhindered s (rs.map (Result.flight s.now)) [] → ∃ t, exec (e.1 f) s = .next t ∧ Issued s t rs

/-- 05 R117, R122: compares and tests into a predicate. -/
def Obligations.ComparesLandOrTrap : Prop :=
  (∀ e ∈ ([
      (.cmpEq, fun a b => decide (a = b)), (.cmpNe, fun a b => decide (a ≠ b)),
      (.cmpLtI, fun a b => a.slt b), (.cmpLeI, fun a b => a.sle b), (.cmpGtI, fun a b => b.slt a), (.cmpGeI, fun a b => b.sle a),
      (.cmpLtN, fun a b => a.ult b), (.cmpLeN, fun a b => a.ule b), (.cmpGtN, fun a b => b.ult a), (.cmpGeN, fun a b => b.ule a),
      (.tstAny, fun a b => decide (a &&& b ≠ 0)), (.tstNone, fun a b => decide (a &&& b = 0))] :
      List ((SSlot → Instr) × (Word → Word → Bool))),
    ∀ (f : SSlot) (s : State), Opens s → s.guard f.g f.gn = true →
      let a := s.sOp f f.sa
      let b := s.sOp f f.sb
      let rs : List Result := [⟨1, .pred f.d.toNat (e.2 a.val b.val), 0⟩]
      Unhindered s (rs.map (Result.flight s.now)) [] →
        (a.poison = false → b.poison = false → ∃ t, exec (e.1 f) s = .next t ∧ Issued s t rs) ∧
        (a.poison = true → ∃ t, exec (e.1 f) s = .next t ∧ Trapped s t 0x10 a.val) ∧
        (a.poison = false → b.poison = true → ∃ t, exec (e.1 f) s = .next t ∧ Trapped s t 0x10 b.val)) ∧
  ∀ (f : SSlot) (s : State), Opens s → s.guard f.g f.gn = true →
    let a := s.sOp f f.sa
    let rs : List Result := [⟨1, .pred f.d.toNat (decide (a.val ≠ 0)), 0⟩]
    Unhindered s (rs.map (Result.flight s.now)) [] →
      (a.poison = false → ∃ t, exec (.smovp f) s = .next t ∧ Issued s t rs) ∧
      (a.poison = true → ∃ t, exec (.smovp f) s = .next t ∧ Trapped s t 0x10 a.val)

/-- 05 R117, R120, R122, R125 to R127, R132: the other S forms that land one result in cycle 1. That INSR's result is poisoned by b is the
model's choice (log 73). -/
def Obligations.MovesAndPredicates : Prop :=
  ∀ (f : SSlot) (s : State), Opens s → s.guard f.g f.gn = true →
    let a := s.sOp f f.sa
    let b := s.sOp f f.sb
    let old := s.cur.sreg f.d.toNat
    let q := f.sa.toNat
    let x := s.cur.pred (f.imm.toNat % 16)
    let y := s.cur.pred (f.imm.toNat / 16 % 16)
    let lo := b.val.toNat % 64
    let hi := min (lo + b.val.toNat / 256 % 64) 63
    let d := s.die (dieOf s.issue.tile)
    ∀ e ∈ ([
        (.sel, .scalar f.d.toNat (if x then a else b)),
        (.movz, .scalar f.d.toNat { val := BitVec.ofNat 64 (f.imm.toNat * 2 ^ (16 * q)) }),
        (.movk, .scalar f.d.toNat
          { val := BitVec.ofNat 64 (old.val.toNat / 2 ^ (16 * q + 16) * 2 ^ (16 * q + 16) + f.imm.toNat * 2 ^ (16 * q)
              + old.val.toNat % 2 ^ (16 * q)), poison := old.poison }),
        (.movn, .scalar f.d.toNat { val := ~~~BitVec.ofNat 64 (f.imm.toNat * 2 ^ (16 * q)) }),
        (.insr, .scalar f.d.toNat
          { val := BitVec.ofNat 64 (old.val.toNat / 2 ^ (hi + 1) * 2 ^ (hi + 1) + a.val.toNat % 2 ^ (hi - lo + 1) * 2 ^ lo
              + old.val.toNat % 2 ^ lo), poison := a.poison || b.poison || old.poison }),
        (.pmovs, .scalar f.d.toNat { val := if x then 1 else 0 }),
        (.pand, .pred f.d.toNat (x && y)), (.por, .pred f.d.toNat (x || y)), (.pxor, .pred f.d.toNat (x ^^ y)),
        (.pandn, .pred f.d.toNat (x && !y)),
        (.ktime, .scalar f.d.toNat { val := BitVec.ofNat 64 (d.tick + d.keyoff.toNat) })] : List ((SSlot → Instr) × Dest)),
      let rs : List Result := [⟨1, e.2, 0⟩]
      Unhindered s (rs.map (Result.flight s.now)) [] → ∃ t, exec (e.1 f) s = .next t ∧ Issued s t rs

/-- 05 R128 to R131, Table 5.3: the control-register forms, for each register. -/
def Obligations.ControlRegisterForms : Prop :=
  ∀ e ∈ ([
      (0x000, (fun s k _ => BitVec.ofNat 64 ((if k.lockLeft = none then 0 else 2 ^ 10) + (if k.inFtr then 2 ^ 9 else 0) + (if k.sstep then 2 ^ 8 else 0)
        + k.prio.toNat * 4 + s.issue.ctx)), 0, 2 ^ 8),
      (0x001, (fun _ k _ => k.valloc.zeroExtend 64), 0, 0), (0x002, (fun _ k _ => k.rbase.zeroExtend 64), 2 ^ 5 - 1, 2 ^ 5 - 1),
      (0x010, (fun _ k _ => k.fmtsel.zeroExtend 64), 2 ^ 4 - 1, 2 ^ 4 - 1), (0x011, (fun _ k _ => k.fmtloop.zeroExtend 64), 2 ^ 3 - 1, 2 ^ 3 - 1),
      (0x020, (fun _ k _ => k.seed), 2 ^ 64 - 1, 2 ^ 64 - 1), (0x021, (fun _ k _ => k.stepReg), 2 ^ 64 - 1, 2 ^ 64 - 1),
      (0x030, (fun _ _ d => BitVec.ofNat 64 d.tick), 0, 0), (0x031, (fun _ _ d => d.keyoff), 0, 0),
      (0x032, (fun _ k _ => k.latemax.zeroExtend 64), 0, 2 ^ 32 - 1), (0x033, (fun _ _ d => BitVec.ofNat 64 (d.stretchAt d.keyTime)), 0, 0),
      (0x034, (fun _ k _ => k.ftrmax.zeroExtend 64), 0, 2 ^ 32 - 1), (0x035, (fun _ k _ => k.regionmax.zeroExtend 64), 0, 2 ^ 32 - 1),
      (0x040, (fun s _ _ => s.curTile.quantum.zeroExtend 64), 0, 2 ^ 16 - 1), (0x050, (fun _ k _ => k.tenant.zeroExtend 64), 0, 0),
      (0x051, (fun _ k _ => k.lvl.zeroExtend 64), 0, 0), (0x060, (fun _ k _ => k.trapcause.zeroExtend 64), 0, 2 ^ 8 - 1),
      (0x061, (fun _ k _ => k.trappc.zeroExtend 64), 0, 2 ^ 17 - 1), (0x062, (fun _ k _ => k.trapslot.zeroExtend 64), 0, 2 ^ 4 - 1),
      (0x063, (fun _ k _ => k.estep.zeroExtend 64), 0, 2 ^ 16 - 1), (0x064, (fun _ k _ => k.trapaddr), 0, 2 ^ 64 - 1),
      (0x065, (fun _ k _ => k.tvec.zeroExtend 64), 0, 2 ^ 17 - 1),
      (0x080, (fun s _ _ => let t := s.issue.tile
        BitVec.ofNat 64 (dieOf t * 2 ^ 24 + (t % 48 / 8) * 2 ^ 20 + (t % 8) * 2 ^ 16 + rowOf t * 2 ^ 12 + colOf t * 2 ^ 8 + t)), 0, 0),
      (0x081, (fun s _ _ => BitVec.ofNat 64 (dieOf s.issue.tile)), 0, 0), (0x082, (fun s _ _ => BitVec.ofNat 64 s.nodeId), 0, 0),
      (0x083, (fun s _ _ => BitVec.ofNat 64 (s.torusZ * 2 ^ 16 + s.torusY * 2 ^ 8 + s.torusX)), 0, 0),
      (0x090, (fun _ k _ => k.sembase.zeroExtend 64), 0, 0), (0x091, (fun _ k _ => k.semcnt.zeroExtend 64), 0, 0),
      (0x0A0, (fun _ k _ => k.dictbase.zeroExtend 64), 0, 0), (0x0A1, (fun _ k _ => k.dictlen.zeroExtend 64), 0, 0),
      (0x0B0, (fun _ k _ => k.vflags.zeroExtend 64), 2 ^ 6 - 1, 2 ^ 6 - 1)]
      ++ (List.range 6).flatMap (fun i => [
        (0x070 + i, (fun _ k _ => (FMap.getD k.idx i 0).zeroExtend 64), 0, 0), (0x078 + i, (fun _ k _ => (FMap.getD k.gdim i 1).zeroExtend 64), 0, 0),
        (0x0C0 + i, (fun _ _ d => (FMap.getD d.linklat i 0).zeroExtend 64), 0, 0)]) :
      List (Nat × (State → Ctx → Die → Word) × Nat × Nat)),
    ∀ (f : SSlot) (s : State), Opens s → s.guard f.g f.gn = true → f.imm.toNat = e.1 →
      let sup := s.issue.lvl = 1#1
      let a := s.sOp f f.sa
      let old := e.2.1 s s.cur (s.die (dieOf s.issue.tile))
      let may := if s.issue.lvl = 1#1 then e.2.2.2 else e.2.2.1
      let readable := sup ∨ e.1 < 0x060 ∨ 0x065 < e.1
      (let rs : List Result := [⟨1, .scalar f.d.toNat { val := old }, 0⟩]
       Unhindered s (rs.map (Result.flight s.now)) [] →
        (readable → ∃ t, exec (.csrr f) s = .next t ∧ Issued s t rs) ∧
        (¬readable → ∃ t, exec (.csrr f) s = .next t ∧ Trapped s t 0x03 (BitVec.ofNat 64 e.1))) ∧
      ∀ w ∈ ([(.csrw, fun _ a => a), (.csrs, fun old a => old ||| a), (.csrc, fun old a => old &&& ~~~a)] :
          List ((SSlot → Instr) × (Word → Word → Word))),
        let new := w.2 old a.val
        let accepted := (∀ i, i < 64 → old.getLsbD i ≠ new.getLsbD i → may.testBit i = true) ∧
          ¬(e.1 = 0x011 ∧ new = 7) ∧ ¬(e.1 = 0x040 ∧ new = 0) ∧ ¬(e.1 = 0x062 ∧ 9 ≤ new.toNat)
        let rs : List Result := [⟨1, .scalar f.d.toNat { val := old }, 0⟩, ⟨1, .csr e.1 new, 0⟩]
        Unhindered s (rs.map (Result.flight s.now)) [] →
          (readable → may ≠ 0 → a.poison = false → accepted → ∃ t, exec (w.1 f) s = .next t ∧ Issued s t rs) ∧
          (¬readable ∨ may = 0 → ∃ t, exec (w.1 f) s = .next t ∧ Trapped s t 0x03 (BitVec.ofNat 64 e.1)) ∧
          (readable → may ≠ 0 → a.poison = true → ∃ t, exec (w.1 f) s = .next t ∧ Trapped s t 0x10 a.val) ∧
          (readable → may ≠ 0 → a.poison = false → ¬accepted →
            ∃ t, exec (w.1 f) s = .next t ∧ Trapped s t 0x06 (BitVec.ofNat 64 e.1))

/-- 05 R118, 06 R142, 02 R48: an S slot and a V slot write nothing in their issue cycle. -/
def Obligations.ScalarAndVectorFrame : Prop :=
  ∀ (i : Instr) (s t : State), ((∃ e ∈ scalarForms, ∃ f, i = e f) ∨ ∃ e ∈ vectorForms, ∃ f, i = e f) →
    (s.issue.mode = .whole → s.issue.fails = []) → exec i s = .next t →
    (∀ n a, (t.tile n).scratch.read a 1 = (s.tile n).scratch.read a 1) ∧ (∀ n a, (t.tile n).om.read a 1 = (s.tile n).om.read a 1) ∧
    (∀ n row col, (t.tile n).readAcc row col = (s.tile n).readAcc row col) ∧
    (∀ d a, (t.die d).wstore.read a 1 = (s.die d).wstore.read a 1) ∧ (∀ pair pa, t.hbmRead pair pa 1 = s.hbmRead pair pa 1) ∧
    (∀ w n, t.sheet w n = s.sheet w n) ∧
    (∀ n, n ≠ s.issue.tile → t.tile n = s.tile n) ∧ (∀ c, c ≠ s.issue.ctx → t.ctx s.issue.tile c = s.ctx s.issue.tile c) ∧
    (t.ctx s.issue.tile s.issue.ctx).registers = s.cur.registers

/-- 09 R230, R231, R236: the loads. -/
def Obligations.LoadResults : Prop :=
  ∀ e ∈ ([(.ldI8, 1, true, false), (.ldN8, 1, false, false), (.ldI16, 2, true, false), (.ldN16, 2, false, false),
      (.ldI32, 4, true, false), (.ldN32, 4, false, false), (.ld64, 8, false, false), (.ldN32Acq, 4, false, true),
      (.ld64Acq, 8, false, true)] : List ((LSlot → Instr) × Nat × Bool × Bool)),
    ∀ (f : LSlot) (s : State), Opens s → s.guard f.g f.gn = true →
      let (i, w, signed, acq) := e
      let a := s.plainOp f.sa
      let x := a.val + f.off.signExtend 64
      let m := s.curTile.scratch
      a.poison = false → ScratchOpen s x w → (acq = true → ∀ j, j < w → m.poisonAt (x.toNat + j) = false) →
      ∃ r : SReg,
        (∀ j, j < w → r.val.extractLsb' (8 * j) 8 = m.byteAt (x.toNat + j)) ∧
        (∀ b, 8 * w ≤ b → b < 64 → r.val.getLsbD b = (signed && r.val.getLsbD (8 * w - 1))) ∧
        (r.poison = true ↔ ∃ j, j < w ∧ m.poisonAt (x.toNat + j) = true) ∧
        let rs : List Result := [⟨4, .scalar f.t.toNat r, 0⟩]
        (Unhindered s (rs.map (Result.flight s.now)) (banksOf x.toNat w) → ∃ t, exec (i f) s = .next t ∧ Issued s t rs)

/-- 09 R230, R231, 08 R211: the stores. -/
def Obligations.StoreEffects : Prop :=
  ∀ e ∈ ([(.st8, 1, false), (.st16, 2, false), (.st32, 4, false), (.st64, 8, false), (.st32Rel, 4, true), (.st64Rel, 8, true)] :
      List ((LSlot → Instr) × Nat × Bool)),
    ∀ (f : LSlot) (s : State), Opens s → s.guard f.g f.gn = true →
      let (i, w, rel) := e
      let a := s.plainOp f.sa
      let b := s.plainOp f.sb
      let x := a.val + f.off.signExtend 64
      let m := s.curTile.scratch
      a.poison = false → ScratchOpen s x w → (rel = true → b.poison = false ∧ s.released s.issue.tile s.issue.ctx = true) →
      Unhindered s [] (banksOf x.toNat w) →
      ∃ t m', exec (i f) s = .next t ∧ Went (s.modCurTile fun y => { y with scratch := m' }) t [] s.issue.nextPc false ∧
        (∀ j, j < w → m'.byteAt (x.toNat + j) = b.val.extractLsb' (8 * j) 8 ∧ m'.poisonAt (x.toNat + j) = b.poison) ∧
        ∀ y, (y < x.toNat ∨ x.toNat + w ≤ y) → m'.byteAt y = m.byteAt y ∧ m'.poisonAt y = m.poisonAt y

/-- 09 R231, R236, 13 R355: the traps of the scratchpad forms. -/
def Obligations.ScratchTraps : Prop :=
  ∀ e ∈ ([(.ldI8, 1, true, false), (.ldN8, 1, true, false), (.ldI16, 2, true, false), (.ldN16, 2, true, false),
      (.ldI32, 4, true, false), (.ldN32, 4, true, false), (.ld64, 8, true, false), (.ldN32Acq, 4, true, true),
      (.ld64Acq, 8, true, true), (.st8, 1, false, false), (.st16, 2, false, false), (.st32, 4, false, false),
      (.st64, 8, false, false), (.st32Rel, 4, false, true), (.st64Rel, 8, false, true)] : List ((LSlot → Instr) × Nat × Bool × Bool)),
    ∀ (f : LSlot) (s : State), Opens s → s.guard f.g f.gn = true → acquireCheck s = [] →
      let (i, w, load, sync) := e
      let a := s.plainOp f.sa
      let b := s.plainOp f.sb
      let x := a.val + f.off.signExtend 64
      let m := s.curTile.scratch
      let bad := a.poison = true ∨ (load = false ∧ sync = true ∧ b.poison = true)
      ∀ v : SReg, Unhindered s (if load then [Result.flight s.now ⟨4, .scalar f.t.toNat v, 0⟩] else []) (banksOf x.toNat w) →
        (bad → ∃ t, exec (i f) s = .next t ∧ Trapped s t 0x10 x) ∧
        (¬bad → x.toNat % w ≠ 0 → ∃ t, exec (i f) s = .next t ∧ Trapped s t 0x14 x) ∧
        (¬bad → x.toNat % w = 0 → 0x400000 < x.toNat + w → ∃ t, exec (i f) s = .next t ∧ Trapped s t 0x15 x) ∧
        (¬bad → ScratchOpen s x w → load = true → sync = true → (∃ j, j < w ∧ m.poisonAt (x.toNat + j) = true) →
          ∃ t, exec (i f) s = .next t ∧ Trapped s t 0x11 x)

/-- 06 R164, R165: the vector loads and stores. -/
def Obligations.VectorLoadsAndStores : Prop :=
  (∀ e ∈ ([(.vld, false), (.vlds, true)] : List ((LSlot → Instr) × Bool)),
     ∀ (f : LSlot) (s : State), Opens s → s.guard f.g f.gn = true →
       let a := s.plainOp f.sa
       let st : SReg := if e.2 then s.plainOp f.sb else { val := 64 }
       let x := a.val + f.off.signExtend 64
       let c := fun q => (x + BitVec.ofNat 64 q * st.val).toNat
       let m := s.curTile.scratch
       Named s.cur f.t.toNat → a.poison = false → st.poison = false → x.toNat % 64 = 0 → st.val.toNat % 64 = 0 →
       acquireCheck s = [] →
       (∀ q, q < 4 → c q + 64 ≤ 0x400000 ∧ s.curTile.heldBytes s.issue.tile (c q) 64 = false) →
       (e.2 = true → ∀ p q, p < 4 → q < 4 → p ≠ q → c p / 64 % 32 ≠ c q / 64 % 32) →
       ∃ v : VReg, v.length = 64 ∧
         (∀ l, l < 64 →
           (∀ j, j < 4 → (v.lane l).val.extractLsb' (8 * j) 8 = m.byteAt (c (l / 16) + 4 * (l % 16) + j)) ∧
           ((v.lane l).poison = true ↔ ∃ j, j < 4 ∧ m.poisonAt (c (l / 16) + 4 * (l % 16) + j) = true)) ∧
         let rs : List Result := [⟨5, .vector (s.cur.veff f.t.toNat) (v.map some), 0⟩]
         (Unhindered s (rs.map (Result.flight s.now)) ((List.range 4).map fun q => c q / 64 % 32) →
           ∃ t, exec (e.1 f) s = .next t ∧ Issued s t rs)) ∧
  ∀ e ∈ ([(.vst, false), (.vsts, true)] : List ((LSlot → Instr) × Bool)),
    ∀ (f : LSlot) (s : State), Opens s → s.guard f.g f.gn = true →
      let a := s.plainOp f.sa
      let st : SReg := if e.2 then s.plainOp f.sb else { val := 64 }
      let x := a.val + f.off.signExtend 64
      let c := fun q => (x + BitVec.ofNat 64 q * st.val).toNat
      let m := s.curTile.scratch
      let v := s.cur.vreg (s.cur.veff f.t.toNat)
      Named s.cur f.t.toNat → a.poison = false → st.poison = false → x.toNat % 64 = 0 → st.val.toNat % 64 = 0 →
      acquireCheck s = [] →
      (∀ q, q < 4 → c q + 64 ≤ 0x400000 ∧ s.curTile.heldBytes s.issue.tile (c q) 64 = false) →
      (e.2 = true → ∀ p q, p < 4 → q < 4 → p ≠ q → c p / 64 % 32 ≠ c q / 64 % 32) →
      Unhindered s [] ((List.range 4).map fun q => c q / 64 % 32) →
      ∃ t m', exec (e.1 f) s = .next t ∧ Went (s.modCurTile fun y => { y with scratch := m' }) t [] s.issue.nextPc false ∧
        (∀ l, l < 64 → ∀ j, j < 4 →
          m'.byteAt (c (l / 16) + 4 * (l % 16) + j) = (v.lane l).val.extractLsb' (8 * j) 8 ∧
          m'.poisonAt (c (l / 16) + 4 * (l % 16) + j) = (v.lane l).poison) ∧
        ∀ y, (∀ q, q < 4 → y < c q ∨ c q + 64 ≤ y) → m'.byteAt y = m.byteAt y ∧ m'.poisonAt y = m.poisonAt y

/-- 09 R232, R233, R236, 13 R359: accumulator accesses on the issuing tile. -/
def Obligations.AccumulatorLocal : Prop :=
  (∀ (s : State) (x : Word),
    (x.toNat % 8 ≠ 0 → accTarget s x = .error (trapCheck 0x14 x)) ∧
    (x.toNat % 8 = 0 → x.toNat < 0x100000 → accTarget s x = .ok (s.issue.tile, x.toNat / 8)) ∧
    (x.toNat % 8 = 0 → 0x100000 ≤ x.toNat → (∀ gr gx gy n off, GAddr.ofWord x ≠ some (.window gr gx gy n 1 off)) →
      accTarget s x = .error (trapCheck 0x16 x))) ∧
  ∀ e ∈ ([(.lda, .lda, false, false), (.ldaAcq, .lda, true, false), (.sta, .sta, false, false), (.staRel, .sta, false, true),
      (.aadd, .aadd, false, false), (.aaddAcq, .aadd, true, false), (.aaddRel, .aadd, false, true), (.aaddAr, .aadd, true, true),
      (.aswp, .aswp, false, false), (.aswpAcq, .aswp, true, false), (.aswpRel, .aswp, false, true), (.aswpAr, .aswp, true, true)] :
      List ((LSlot → Instr) × AccOp × Bool × Bool)),
    ∀ (f : LSlot) (s : State), Opens s → s.guard f.g f.gn = true → ∀ n,
      let (i, op, acq, rel) := e
      let a := s.plainOp f.sa
      let b := s.plainOp f.sb
      let x := a.val + 8 * f.off.signExtend 64
      let old := FMap.getD s.curTile.acc n {}
      let sum := old.val.toInt + b.val.toInt
      let clamps : Bool := decide (sum < -2 ^ 63 ∨ 2 ^ 63 - 1 < sum)
      let kept : Int := if sum < -2 ^ 63 then -2 ^ 63 + 1 else if 2 ^ 63 - 1 < sum then 2 ^ 63 - 1 else sum
      let new : AccEntry :=
        match op with
        | .lda => old
        | .sta => { val := b.val, sat := false, poison := b.poison }
        | .aadd =>
          if old.poison then old
          else { val := BitVec.ofInt 64 kept, sat := old.sat || clamps, poison := b.poison }
        | .aswp => if old.poison then old else { val := b.val, sat := false, poison := b.poison }
      let rs : List Result :=
        match op with
        | .lda => [⟨6, .scalar f.t.toNat { val := old.val, poison := old.poison }, 0⟩]
        | .sta => []
        | .aadd => [⟨8, .scalar f.t.toNat { val := old.val, poison := old.poison }, if !old.poison && clamps then flSAT else 0⟩]
        | .aswp => [⟨8, .scalar f.t.toNat { val := old.val, poison := old.poison }, 0⟩]
      accTarget s x = .ok (s.issue.tile, n) → acquireCheck s = [] → a.poison = false →
      (rel = true → b.poison = false ∧ s.released s.issue.tile s.issue.ctx = true) → (acq = true → old.poison = false) →
      s.curTile.regionBusy (n / 2048) = false → Unhindered s (rs.map (Result.flight s.now)) [] →
      ∃ t acc', exec (i f) s = .next t ∧
        Went (s.modCurTile fun y => { y with acc := acc' }) t (rs.map (Result.flight s.now)) s.issue.nextPc (op == .aadd || op == .aswp) ∧
        ∀ k, FMap.getD acc' k {} = if k = n then new else FMap.getD s.curTile.acc k {}

/-- 09 R234, Table 9.5: accumulator accesses over the mesh. -/
def Obligations.AccumulatorRemote : Prop :=
  ∀ e ∈ ([(.lda, .lda, false, 6), (.sta, .sta, false, 8), (.staRel, .sta, true, 8), (.aadd, .aadd, false, 8), (.aaddRel, .aadd, true, 8),
      (.aswp, .aswp, false, 8), (.aswpRel, .aswp, true, 8)] : List ((LSlot → Instr) × AccOp × Bool × Nat)),
    ∀ (f : LSlot) (s : State), Opens s → s.guard f.g f.gn = true → ∀ u n,
      let (i, op, rel, lat) := e
      let a := s.plainOp f.sa
      let b := s.plainOp f.sb
      let x := a.val + 8 * f.off.signExtend 64
      let w := hops s.issue.tile u + 12 * crossings s.issue.tile u
      let r : MeshReq :=
        { id := s.nextId, tile := s.issue.tile, ctx := s.issue.ctx, lat := lat, target := u, row := n / 128, col := n % 128, op := op
          data := b, arrive := s.now + 1 + w, way := w }
      let l : Landing :=
        { id := s.nextId, due := s.now + (lat + 2 * w), dest := .scalar f.t.toNat {}, waits := true, nominal := some (s.now + (lat + 2 * w)) }
      let ls := if op == .sta then [] else [l]
      u ≠ s.issue.tile → accTarget s x = .ok (u, n) → acquireCheck s = [] → a.poison = false →
      (rel = true → b.poison = false ∧ s.released s.issue.tile s.issue.ctx = true) → Unhindered s ls [] →
      ∃ t, exec (i f) s = .next t ∧
        Went { s with mesh := s.mesh ++ [r], nextId := s.nextId + 1 } t ls s.issue.nextPc (op == .aadd || op == .aswp)

/-- 09 R234, R235, R236: far acquires of an accumulator entry. -/
def Obligations.FarAcquires : Prop :=
  ∀ e ∈ ([(.ldaAcq, .lda, false), (.aaddAcq, .aadd, false), (.aaddAr, .aadd, true), (.aswpAcq, .aswp, false), (.aswpAr, .aswp, true)] :
      List ((LSlot → Instr) × AccOp × Bool)),
    ∀ (f : LSlot) (s : State), Opens s → s.guard f.g f.gn = true → ∀ u n,
      let (i, op, rel) := e
      let a := s.plainOp f.sa
      let b := s.plainOp f.sb
      let x := a.val + 8 * f.off.signExtend 64
      let w := hops s.issue.tile u + 12 * crossings s.issue.tile u
      let r : MeshReq :=
        { id := s.nextId, tile := s.issue.tile, ctx := s.issue.ctx, lat := 1, target := u, row := n / 128, col := n % 128, op := op
          data := b, arrive := s.now + 1 + w, way := w, far := true }
      u ≠ s.issue.tile → accTarget s x = .ok (u, n) → acquireCheck s = [] → a.poison = false → (rel = true → b.poison = false) →
      s.issue.alone = true → s.issue.zeroHdr = true → s.cur.lockLeft = none → s.cur.inFtr = false →
      (s.cur.farAcq = none → f.t.toNat ∈ s.cur.heldAt s.now → Unhindered s [] [] →
        ∃ t, exec (i f) s = .next t ∧ Held s t .matrixBusy) ∧
      (s.cur.farAcq = none → f.t.toNat ∉ s.cur.heldAt s.now → (rel = true → s.released s.issue.tile s.issue.ctx = true) → Unhindered s [] [] →
        ∃ t, exec (i f) s = .next t ∧ OnlyContext { s with mesh := s.mesh ++ [r] } t ∧
          t.ctx s.issue.tile s.issue.ctx =
            { s.cur with farAcq := some { id := s.nextId, pc := s.cur.pc }, st := .blocked .watermark }) ∧
      (∀ q, s.cur.farAcq = some q → q.back = none → Unhindered s [] [] → ∃ t, exec (i f) s = .next t ∧ Held s t .watermark) ∧
      (∀ q v fl, s.cur.farAcq = some q → q.pc = s.issue.pc →
        let l : Landing := { Result.flight s.now ⟨1, .scalar f.t.toNat { val := v }, fl⟩ with free := true }
        Unhindered s [l] [] →
        (q.back = some (v, false, fl) → ∃ t, exec (i f) s = .next t ∧
          Went (s.modCur fun k => { k with farAcq := none }) t [l] s.issue.nextPc (op == .aadd || op == .aswp)) ∧
        (q.back = some (v, true, fl) → ∃ t, exec (i f) s = .next t ∧ (t.ctx s.issue.tile s.issue.ctx).farAcq = none ∧
          (t.ctx s.issue.tile s.issue.ctx).pendingTrap = some
            ({ kind := .precise, cause := 0x11, pc := s.issue.pc, slot := BitVec.ofNat 4 s.issue.slot, addr := x, ret := s.issue.pc },
              s.now)))

/-- 02 R40: a false guard. -/
def Obligations.FalseGuards : Prop :=
  (∀ i ∈ scalarForms, ∀ (f : SSlot) (s : State), Opens s → s.guard f.g f.gn = false →
    (i f = .mulwI f ∨ i f = .mulwN f → f.d.toNat % 2 = 0) → Unhindered s [] [] →
    ∃ t, exec (i f) s = .next t ∧ Issued s t []) ∧
  ∀ i ∈ localForms, ∀ (f : LSlot) (s : State), Opens s → s.guard f.g f.gn = false →
    (i f ∈ [.vld f, .vlds f, .vst f, .vsts f] → Named s.cur f.t.toNat) → Unhindered s [] [] →
    ∃ t, exec (i f) s = .next t ∧ Issued s t []

/-- 06 R133, R134, R140 to R143, R148, Table 6.6: the integer forms, those that saturate among them. -/
def Obligations.VectorIntegers : Prop :=
  ((∀ e ∈ ([(.vaddI32, 3, (· + ·)), (.vsubI32, 3, (· - ·)), (.vmulI32, 5, (· * ·)),
       (.vmulhI32, 5, fun a b => BitVec.ofInt 32 (a.toInt * b.toInt / 2 ^ 32)),
       (.vmulhN32, 5, fun a b => BitVec.ofNat 32 (a.toNat * b.toNat / 2 ^ 32)),
       (.vminI32, 2, fun a b => if b.slt a then b else a), (.vmaxI32, 2, fun a b => if a.slt b then b else a),
       (.vand, 2, (· &&& ·)), (.vor, 2, (· ||| ·)), (.vxor, 2, (· ^^^ ·)), (.vandn, 2, fun a b => a &&& ~~~b),
       (.vshl, 2, fun a b => a <<< (b.toNat % 32)), (.vshr, 2, fun a b => a >>> (b.toNat % 32)),
       (.vsar, 2, fun a b => a.sshiftRight (b.toNat % 32))] :
       List ((VSlot → Instr) × Nat × (BitVec 32 → BitVec 32 → BitVec 32))),
     ElementForm e.1 32 e.2.1 false fun _ _ a b _ => (e.2.2 a b, 0)) ∧
   (∀ e ∈ ([(.vaddI16, 3, (· + ·)), (.vsubI16, 3, (· - ·)), (.vmulI16, 5, (· * ·))] :
       List ((VSlot → Instr) × Nat × (BitVec 16 → BitVec 16 → BitVec 16))),
     ElementForm e.1 16 e.2.1 false fun _ _ a b _ => (e.2.2 a b, 0)) ∧
   ∀ e ∈ ([(.vaddI8, 3, (· + ·)), (.vsubI8, 3, (· - ·))] : List ((VSlot → Instr) × Nat × (BitVec 8 → BitVec 8 → BitVec 8))),
     ElementForm e.1 8 e.2.1 false fun _ _ a b _ => (e.2.2 a b, 0)) ∧
  (let clamp := fun (w : Nat) (lo hi z : Int) => (BitVec.ofInt w (max lo (min hi z)), if z < lo ∨ hi < z then flSAT else (0 : Flags))
   (∀ e ∈ ([(.vaddsI32, false), (.vsubsI32, true)] : List ((VSlot → Instr) × Bool)),
     ElementForm e.1 32 3 false fun _ _ a b _ =>
       clamp 32 (-2 ^ 31) (2 ^ 31 - 1) (if e.2 then a.toInt - b.toInt else a.toInt + b.toInt)) ∧
   (∀ e ∈ ([(.vaddsI16, false), (.vsubsI16, true)] : List ((VSlot → Instr) × Bool)),
     ElementForm e.1 16 3 false fun _ _ a b _ =>
       clamp 16 (-2 ^ 15) (2 ^ 15 - 1) (if e.2 then a.toInt - b.toInt else a.toInt + b.toInt)) ∧
   (∀ e ∈ ([(.vaddsI8, false), (.vsubsI8, true)] : List ((VSlot → Instr) × Bool)),
     ElementForm e.1 8 3 false fun _ _ a b _ =>
       clamp 8 (-2 ^ 7) (2 ^ 7 - 1) (if e.2 then a.toInt - b.toInt else a.toInt + b.toInt)) ∧
   ∀ e ∈ ([(.vaddsN8, false), (.vsubsN8, true)] : List ((VSlot → Instr) × Bool)),
     ElementForm e.1 8 3 false fun _ _ a b _ =>
       clamp 8 0 (2 ^ 8 - 1) (if e.2 then (a.toNat : Int) - b.toNat else a.toNat + b.toNat))

/-- 06 R141, R143 to R146, Table 6.4: the floating-point forms. Whether infinity times zero fused with a quiet NaN sets NV is a
constant of Config (log 13). -/
def Obligations.VectorFloats : Prop :=
  let lift := fun (w : Nat) (op : RMode → Nat → Nat → Nat → Nat × Flags) (m : RMode) (d : Nat) (a b : BitVec w) (_ : BitVec w) =>
    (BitVec.ofNat w (op m d a.toNat b.toNat).1, (op m d a.toNat b.toNat).2)
  let forms := fun (w : Nat) (F : FpFmt) (add sub mul min max fma : VSlot → Instr) =>
    (∀ e ∈ [(add, 3, F.add), (sub, 3, F.sub), (mul, 5, F.mul), (min, 2, fun _ _ a b => F.minMax false a b),
        (max, 2, fun _ _ a b => F.minMax true a b)], ElementForm e.1 w e.2.1 false (lift w e.2.2)) ∧
    ElementForm fma w 5 true fun m d a b c =>
      (BitVec.ofNat w (F.fma m d a.toNat b.toNat c.toNat).1, (F.fma m d a.toNat b.toNat c.toNat).2)
  forms 32 fp32 .vaddF32 .vsubF32 .vmulF32 .vminF32 .vmaxF32 .vfmaF32 ∧
  forms 16 fp16 .vaddF16 .vsubF16 .vmulF16 .vminF16 .vmaxF16 .vfmaF16 ∧
  forms 16 bf16 .vaddBf16 .vsubBf16 .vmulBf16 .vminBf16 .vmaxBf16 .vfmaBf16 ∧
  ∀ e ∈ ([(fp32, 31), (fp16, 15), (bf16, 15)] : List (FpFmt × Nat)), ∀ (mode : RMode) (d a b c : Nat),
    let F := e.1
    let x := F.decode a
    let y := F.decode b
    let z := F.decode c
    let num := fun (n : Bool) (m : Nat) (e : Int) => (if n then -1 else 1 : ℚ) * m * 2 ^ e
    let gives := fun (r : Nat × Flags) (v : Machine.Num) => r = F.ofNum mode d v
    -- the rounding of an exact rational, with the sign of a zero
    let exact := fun (r : Nat × Flags) (n : Bool) (v : ℚ) => ∃ s m e, num s m e = v ∧ (m = 0 → s = n) ∧ gives r (.fin s m e)
    let nan := fun (v : Machine.Num) => ∃ s, v = .nan s
    let zero := fun (n k : Bool) => if n = k then n else decide (mode = .rdn)
    (nan x ∨ nan y → ∃ s, (s = true ↔ x = .nan true ∨ y = .nan true) ∧
      gives (F.add mode d a b) (.nan s) ∧ gives (F.sub mode d a b) (.nan s) ∧ gives (F.mul mode d a b) (.nan s)) ∧
    (∀ n k, x = .inf n → y = .inf k → gives (F.add mode d a b) (if n = k then .inf n else .nan true) ∧
      gives (F.sub mode d a b) (if n = k then .nan true else .inf n) ∧ gives (F.mul mode d a b) (.inf (n != k))) ∧
    (∀ n k m q, x = .inf n → y = .fin k m q → gives (F.add mode d a b) (.inf n) ∧ gives (F.sub mode d a b) (.inf n) ∧
      gives (F.mul mode d a b) (if m = 0 then .nan true else .inf (n != k))) ∧
    (∀ n k m q, x = .fin n m q → y = .inf k → gives (F.add mode d a b) (.inf k) ∧ gives (F.sub mode d a b) (.inf (!k)) ∧
      gives (F.mul mode d a b) (if m = 0 then .nan true else .inf (n != k))) ∧
    (∀ n m q k l r, x = .fin n m q → y = .fin k l r → exact (F.add mode d a b) (zero n k) (num n m q + num k l r) ∧
      exact (F.sub mode d a b) (zero n (!k)) (num n m q - num k l r) ∧ exact (F.mul mode d a b) (n != k) (num n m q * num k l r)) ∧
    (let invalid := (∃ n k q, x = .inf n ∧ y = .fin k 0 q) ∨ ∃ n q k, x = .fin n 0 q ∧ y = .inf k
     let infinite := fun (n : Bool) => ¬invalid ∧ ∃ i k, n = (i != k) ∧
       (x = .inf i ∧ (y = .inf k ∨ ∃ m q, y = .fin k m q) ∨ (∃ m q, x = .fin i m q) ∧ y = .inf k)
     let r := F.fma mode d a b c
     (nan x ∨ nan y ∨ ¬invalid ∧ nan z → ∃ s, (s = true ↔ x = .nan true ∨ y = .nan true ∨ z = .nan true) ∧ gives r (.nan s)) ∧
     (invalid → (z ≠ .nan false → gives r (.nan true)) ∧ (z = .nan false → gives r (.nan Config.fmaInvalidWithQuietNan))) ∧
     (∀ n, infinite n → (∀ k, z = .inf k → gives r (if n = k then .inf n else .nan true)) ∧ ∀ k m q, z = .fin k m q → gives r (.inf n)) ∧
     (∀ n m q k l s, x = .fin n m q → y = .fin k l s → (∀ i, z = .inf i → gives r (.inf i)) ∧
       ∀ i j t, z = .fin i j t → exact r (zero (n != k) i) (num n m q * num k l s + num i j t))) ∧
    let sig := fun (v : Flags) => v = if x = .nan true ∨ y = .nan true then flNV else 0
    let sign := 2 ^ e.2
    let below := fun (u v : Nat) => (sign ≤ u ∧ v < sign) ∨ (u < sign ∧ v < sign ∧ u < v) ∨ (sign ≤ u ∧ sign ≤ v ∧ v < u)
    ∀ isMax : Bool, let r := F.minMax isMax a b
      sig r.2 ∧ (nan x → nan y → r.1 = (F.ofNum mode d (.nan false)).1) ∧ (nan x → ¬nan y → r.1 = b) ∧ (¬nan x → nan y → r.1 = a) ∧
      (¬nan x → ¬nan y → a < 2 * sign → b < 2 * sign → r.1 = if below a b ↔ isMax = false then a else b)

/-- 06 R141, R146 to R148, Table 6.5: forms of one source. That 2^a and log2 a are carried to a fixed number of bits before they are
rounded is the model's choice (log 14). -/
def Obligations.VectorUnary : Prop :=
  let nan := fun (a : Lane) => a &&& 0x7F800000#32 = 0x7F800000#32 ∧ a &&& 0x7FFFFF#32 ≠ 0#32
  let signed := fun (a r : Lane) => if nan a then (0x7FC00000#32, if a.getLsbD 22 then 0 else flNV) else (r, (0 : Flags))
  let fn := fun (g : RMode → Nat → Nat → Nat × Flags) (m : RMode) (d : Nat) (a : Lane) =>
    (BitVec.ofNat 32 (g m d a.toNat).1, (g m d a.toNat).2)
  (∀ e ∈ ([(.vabsI32, 2, fun _ _ a => (if a.slt 0 then -a else a, 0)), (.vnegI32, 2, fun _ _ a => (-a, 0)),
      (.vabsF32, 2, fun _ _ a => signed a (a &&& 0x7FFFFFFF#32)), (.vnegF32, 2, fun _ _ a => signed a (a ^^^ 0x80000000#32)),
      (.vclz, 2, fun _ _ a => (BitVec.ofNat 32 (32 - a.toNat.size), 0)),
      (.vpopc, 2, fun _ _ a => (BitVec.ofNat 32 ((List.range 32).filter fun i => a.getLsbD i).length, 0)),
      (.vrcp, 8, fn fpRecip), (.vrsq, 8, fn fpRsqrt), (.vexp2, 8, fn fpExp2), (.vlog2, 8, fn fpLog2), (.vsqrt, 12, fn fpSqrt)] :
      List ((VSlot → Instr) × Nat × (RMode → Nat → Lane → Lane × Flags))),
    LaneForm e.1 e.2.1 e.2.2) ∧
  ∀ (mode : RMode) (d a : Nat), a < 2 ^ 32 →
    let gives := fun (r : Nat × Flags) (neg : Bool) (y : ℝ) =>
      (∀ (m : Nat) (e : Int), y = (m : ℝ) * 2 ^ e → r = fp32.ofNum mode d (.fin neg m e)) ∧
      ∃ (m : Nat) (e : Int), |(m : ℝ) * 2 ^ e - y| ≤ y / 2 ^ 120 ∧ r = fp32.ofNum mode d (.fin neg m e)
    let rcp := fpRecip mode d a
    let rsq := fpRsqrt mode d a
    let exp := fpExp2 mode d a
    let log := fpLog2 mode d a
    let sqrt := fpSqrt mode d a
    let bad : Nat × Flags := (0x7FC00000, flNV)
    (∀ sig, fp32.decode a = .nan sig → ∀ r ∈ [rcp, rsq, exp, log, sqrt], r = (0x7FC00000, if sig then flNV else 0)) ∧
    (fp32.decode a = .inf false → rcp = (0, 0) ∧ rsq = (0, 0) ∧ exp = (0x7F800000, 0) ∧ log = (0x7F800000, 0) ∧ sqrt = (0x7F800000, 0)) ∧
    (fp32.decode a = .inf true → rcp = (0x80000000, 0) ∧ rsq = bad ∧ exp = (0, 0) ∧ log = bad ∧ sqrt = bad) ∧
    (∀ neg e, fp32.decode a = .fin neg 0 e →
      let inf : Nat × Flags := (if neg then 0xFF800000 else 0x7F800000, flDZ)
      rcp = inf ∧ rsq = inf ∧ exp = (0x3F800000, 0) ∧ log = (0xFF800000, flDZ) ∧ sqrt = (if neg then 0x80000000 else 0, 0)) ∧
    ∀ neg (m : Nat) (e : Int), fp32.decode a = .fin neg m e → 0 < m →
      let x : ℝ := (m : ℝ) * 2 ^ e
      gives rcp neg (1 / x) ∧ gives exp false ((2 : ℝ) ^ (if neg then -x else x)) ∧
      (neg = true → rsq = bad ∧ log = bad ∧ sqrt = bad) ∧
      (neg = false → gives rsq false (1 / √x) ∧ gives sqrt false √x ∧
        (1 ≤ x → gives log false (Real.logb 2 x)) ∧ (x < 1 → gives log true (-Real.logb 2 x)))

/-- 06 R141, R143, R149, Table 6.7: the compares. -/
def Obligations.VectorCompares : Prop :=
  (let nan := fun (a : Lane) => a &&& 0x7F800000#32 = 0x7F800000#32 ∧ a &&& 0x7FFFFF#32 ≠ 0#32
   let snan := fun (a : Lane) => nan a ∧ a.getLsbD 22 = false
   -- the order of two numbers is that of their patterns read as signed magnitudes
   let value := fun (a : Lane) => (if a.getLsbD 31 then -1 else 1 : Int) * (a &&& 0x7FFFFFFF#32).toNat
   ∀ a b : Lane,
     let c := fun r => fp32.compare r a.toNat b.toNat
     let d := fun r => fp32.compare r b.toNat a.toNat
     ((c .un).1 = true ↔ nan a ∨ nan b) ∧
     (nan a ∨ nan b → (c .eq).1 = false ∧ (c .ne).1 = true ∧ (c .lt).1 = false ∧ (c .le).1 = false) ∧
     (¬nan a → ¬nan b → (c .ne).1 = (!(c .eq).1) ∧ (c .le).1 = (!(d .lt).1) ∧ (c .eq).1 = ((c .le).1 && (d .le).1)) ∧
     (¬nan a → ¬nan b → (c .lt).1 = decide (value a < value b)) ∧
     (a &&& 0x7FFFFFFF#32 = 0#32 → b &&& 0x7FFFFFFF#32 = 0#32 → (c .eq).1 = true) ∧
     (∀ r ∈ [Rel.eq, Rel.ne, Rel.un], (c r).2 = 0 ∨ (c r).2 = flNV) ∧ (∀ r ∈ [Rel.lt, Rel.le], (c r).2 = 0 ∨ (c r).2 = flNV) ∧
     (∀ r ∈ [Rel.eq, Rel.ne, Rel.un], (c r).2 = flNV ↔ snan a ∨ snan b) ∧ ∀ r ∈ [Rel.lt, Rel.le], (c r).2 = flNV ↔ nan a ∨ nan b) ∧
  (∀ e ∈ ([(.vcmpI32Eq, fun a b => decide (a = b)), (.vcmpI32Ne, fun a b => decide (a ≠ b)), (.vcmpI32Lt, fun a b => a.slt b),
      (.vcmpI32Le, fun a b => a.sle b), (.vcmpN32Lt, fun a b => a.ult b), (.vcmpN32Le, fun a b => a.ule b)] :
      List ((VSlot → Instr) × (Lane → Lane → Bool))),
    CompareForm e.1 fun a b => (e.2 a b, 0)) ∧
  ∀ e ∈ ([(.vcmpF32Eq, .eq), (.vcmpF32Ne, .ne), (.vcmpF32Lt, .lt), (.vcmpF32Le, .le), (.vcmpF32Un, .un)] :
      List ((VSlot → Instr) × Rel)),
    CompareForm e.1 fun a b => fp32.compare e.2 a.toNat b.toNat

/-- 06 R150, R151, R143, R141: mask forms and selection. -/
def Obligations.MasksAndSelection : Prop :=
  ∀ (f : VSlot) (s : State), Opens s →
    let mask := fun (n : BitVec 6) => s.cur.mreg (s.cur.meff n.toNat)
    (∀ e ∈ ([(.mand, (· &&& ·)), (.mor, (· ||| ·)), (.mxor, (· ^^^ ·)), (.mandn, fun a b => a &&& ~~~b)] :
        List ((VSlot → Instr) × (Word → Word → Word))),
      let rs : List Result := [⟨2, .mask (s.cur.meff f.vd.toNat) (BitVec.allOnes 64)
        { bits := e.2 (mask f.va).bits (mask f.vb).bits, poison := (mask f.va).poison ||| (mask f.vb).poison }, 0⟩]
      Unhindered s (rs.map (Result.flight s.now)) [] → ∃ t, exec (e.1 f) s = .next t ∧ Issued s t rs) ∧
    (let rs : List Result :=
       [⟨2, .scalar f.sd.toNat { val := (mask f.va).bits, poison := decide ((mask f.va).poison ≠ 0) }, 0⟩]
     Unhindered s (rs.map (Result.flight s.now)) [] → ∃ t, exec (.mtos f) s = .next t ∧ Issued s t rs) ∧
    (let a := s.vOp f
     let rs : List Result := [⟨2, .mask (s.cur.meff f.vd.toNat) (BitVec.allOnes 64)
       { bits := a.val, poison := if a.poison then BitVec.allOnes 64 else 0 }, 0⟩]
     Unhindered s (rs.map (Result.flight s.now)) [] → ∃ t, exec (.stom f) s = .next t ∧ Issued s t rs) ∧
    (NamesBinary s f →
      let m := s.cur.mreg (s.cur.meff f.mkr.toNat)
      let x : Nat → LaneVal := fun l =>
        if m.bits.getLsbD l then { val := ((s.vsrc f.va).lane l).val, poison := ((s.vsrc f.va).lane l).poison || m.poison.getLsbD l }
        else { val := bElem s f 32 l 0, poison := bPoison s f l || m.poison.getLsbD l }
      let rs : List Result := [⟨2, .vector (s.cur.veff f.vd.toNat) ((List.range 64).map fun l => some (x l)), 0⟩]
      Unhindered s (rs.map (Result.flight s.now)) [] → ∃ t, exec (.vsel f) s = .next t ∧ Issued s t rs)

/-- 06 R141, R144, R152, Table 6.8: the reductions (the flags of a poisoned node: log 24). -/
def Obligations.Reductions : Prop :=
  (∀ (f : VSlot) (s : State), Opens s → Named s.cur f.va.toNat →
      let v := s.vsrc f.va
      let m := s.cur.mreg (s.cur.meff f.mkr.toNat)
      ∀ part : List Nat, part.Nodup → (∀ l, l ∈ part ↔ l < 64 ∧ TakesPart s f l) →
      ∃ p : Bool, (p = true ↔ ∃ l ∈ part, (v.lane l).poison = true ∨ (f.me = 1#1 ∧ m.poison.getLsbD l = true)) ∧
      ∀ r : Word,
        let rs : List Result := [⟨6, .scalar f.sd.toNat { val := r, poison := p }, 0⟩]
        Unhindered s (rs.map (Result.flight s.now)) [] →
          (r = BitVec.ofInt 64 (part.map fun l => (v.lane l).val.toInt).sum → ∃ t, exec (.vraddI32 f) s = .next t ∧ Issued s t rs) ∧
          ((part = [] ∧ r = 0xFFFFFFFF80000000#64) ∨
              (∃ l ∈ part, r = (v.lane l).val.signExtend 64 ∧ ∀ k ∈ part, (v.lane k).val.toInt ≤ (v.lane l).val.toInt) →
            ∃ t, exec (.vrmaxI32 f) s = .next t ∧ Issued s t rs) ∧
          ((part = [] ∧ r = 0x7FFFFFFF#64) ∨
              (∃ l ∈ part, r = (v.lane l).val.signExtend 64 ∧ ∀ k ∈ part, (v.lane l).val.toInt ≤ (v.lane k).val.toInt) →
            ∃ t, exec (.vrminI32 f) s = .next t ∧ Issued s t rs)) ∧
  ∀ e ∈ ([(.vraddF32, 0#64, fp32.add), (.vrmaxF32, 0x7FC00000#64, fun _ _ a b => fp32.minMax true a b),
        (.vrminF32, 0x7FC00000#64, fun _ _ a b => fp32.minMax false a b)] :
        List ((VSlot → Instr) × Word × (RMode → Nat → Nat → Nat → Nat × Flags))),
      ∀ (f : VSlot) (s : State), Opens s → Named s.cur f.va.toNat →
        let v := s.vsrc f.va
        let m := s.cur.mreg (s.cur.meff f.mkr.toNat)
        let bad := fun l => (v.lane l).poison || (f.me == 1#1 && m.poison.getLsbD l)
        ∀ node : Nat → Nat → Option RNode,
        (∀ l, l < 64 → (TakesPart s f l → node 0 l = some { val := (v.lane l).val.toNat, flags := 0, poison := bad l }) ∧
          (¬TakesPart s f l → node 0 l = none)) →
        (∀ t i, t < 6 → i < 2 ^ (5 - t) → node (t + 1) i =
          match node t (2 * i), node t (2 * i + 1) with
          | some a, some b =>
            let r := e.2.2 (RMode.ofCode f.rm.toNat) (drawOf s (64 * (t + 1) + i) 0) a.val b.val
            let p := a.poison || b.poison
            some { val := r.1, flags := a.flags ||| b.flags ||| (if p then 0 else r.2), poison := p }
          | some a, none => some a
          | none, b => b) →
        let r : Word × Flags := match node 6 0 with | some n => (BitVec.ofNat 64 n.val, n.flags) | none => (e.2.1, 0)
        ∃ p : Bool, (p = true ↔ ∃ l, l < 64 ∧ TakesPart s f l ∧ bad l = true) ∧
          let rs : List Result := [⟨6, .scalar f.sd.toNat { val := r.1, poison := p }, r.2⟩]
          (Unhindered s (rs.map (Result.flight s.now)) [] → ∃ t, exec (e.1 f) s = .next t ∧ Issued s t rs)

/-- 06 R143, R153, Table 6.9: permutes and broadcasts. -/
def Obligations.Permutes : Prop :=
  let va := fun (s : State) (f : VSlot) => Named s.cur f.va.toNat
  CopyForm .vperm 4 (fun s f => Named s.cur f.va.toNat ∧ Named s.cur f.vb.toNat) (fun s f l =>
    let i := (s.vsrc f.vb).lane l
    let x := (s.vsrc f.va).lane (i.val.truncate 6).toNat
    { val := x.val, poison := x.poison || i.poison }) ∧
  CopyForm .vrot 4 va (fun s f l =>
    let x := (s.vsrc f.va).lane ((l + ((s.vOp f).val.truncate 6).toNat) % 64)
    { val := x.val, poison := x.poison || (s.vOp f).poison }) ∧
  CopyForm .vbcast 4 va (fun s f _ => (s.vsrc f.va).lane (f.imm.truncate 6).toNat) ∧
  CopyForm .vmov 2 va (fun s f l => (s.vsrc f.va).lane l) ∧
  CopyForm .vmovi 2 (fun _ _ => True) (fun s f _ => { val := (s.vOp f).val.truncate 32, poison := (s.vOp f).poison }) ∧
  ∀ (f : VSlot) (s : State), Opens s →
    (Named s.cur f.va.toNat →
      let x := (s.vsrc f.va).lane (f.imm.truncate 6).toNat
      let rs : List Result := [⟨4, .scalar f.sd.toNat { val := x.val.zeroExtend 64, poison := x.poison }, 0⟩]
      Unhindered s (rs.map (Result.flight s.now)) [] → ∃ t, exec (.vext f) s = .next t ∧ Issued s t rs) ∧
    (Named s.cur f.vd.toNat →
      let x : LaneVal := { val := (s.vOp f).val.truncate 32, poison := (s.vOp f).poison }
      let rs : List Result := [⟨4, .vector (s.cur.veff f.vd.toNat)
        ((List.range 64).map fun l => if l = (f.imm.truncate 6).toNat then some x else none), 0⟩]
      Unhindered s (rs.map (Result.flight s.now)) [] → ∃ t, exec (.vins f) s = .next t ∧ Issued s t rs)

/-- 06 R154, R156: the element conversions. -/
def Obligations.ElementConversions : Prop :=
  let num := fun (g : RMode → Nat → Machine.Num → Nat × Flags) (src : Lane → Machine.Num) (m : RMode) (d : Nat) (a : Lane) =>
    (BitVec.ofNat 32 (g m d (src a)).1, (g m d (src a)).2)
  let int := fun (lo hi : Int) (m : RMode) (d : Nat) (a : Lane) =>
    let r := numToInt m d lo hi (fp32.decode a.toNat)
    ((BitVec.ofInt 32 r.1, r.2) : Lane × Flags)
  let f32 := fun (a : Lane) => fp32.decode a.toNat
  (∀ e ∈ ([(.vcvtI32F32, int (-2 ^ 31) (2 ^ 31 - 1)), (.vcvtN32F32, int 0 (2 ^ 32 - 1)),
      (.vcvtF32I32, num fp32.ofNum fun a => Machine.Num.ofInt a.toInt 0), (.vcvtF32N32, num fp32.ofNum fun a => Machine.Num.ofInt a.toNat 0),
      (.vtologLb8, num (logWordOfNum 8) f32), (.vtologLb6, num (logWordOfNum 4) f32), (.vtologLb4, num (logWordOfNum 2) f32),
      (.vfromlogLb8, num fp32.ofNum fun a => (logWordDecode a.toNat).toNum 8),
      (.vfromlogLb6, num fp32.ofNum fun a => (logWordDecode a.toNat).toNum 4),
      (.vfromlogLb4, num fp32.ofNum fun a => (logWordDecode a.toNat).toNum 2)] :
      List ((VSlot → Instr) × (RMode → Nat → Lane → Lane × Flags))), LaneForm e.1 4 e.2) ∧
  (∀ e ∈ ([(.vcvtF16F32, fp16.ofNum), (.vcvtBf16F32, bf16.ofNum), (.vtologLm16, lm16OfNum)] :
      List ((VSlot → Instr) × (RMode → Nat → Machine.Num → Nat × Flags))),
    ∀ (f : VSlot) (s : State), Opens s → Named s.cur f.vd.toNat → Named s.cur f.va.toNat → Named s.cur f.vb.toNat →
      let a := fun l => (s.vsrc f.va).lane l
      let b := fun l => (s.vsrc f.vb).lane l
      let lo := fun l => e.2 (RMode.ofCode f.rm.toNat) (drawOf s (2 * l) l) (f32 (a l).val)
      let hi := fun l => e.2 (RMode.ofCode f.rm.toNat) (drawOf s (2 * l + 1) l) (f32 (b l).val)
      let x : Nat → LaneVal := fun l =>
        { val := BitVec.ofNat 32 ((lo l).1 + 2 ^ 16 * (hi l).1), poison := (a l).poison || (b l).poison }
      let rs : List Result :=
        [⟨4, .vector (s.cur.veff f.vd.toNat) (lanesOut s f x), unitFlags s f 64 x fun l => (lo l).2 ||| (hi l).2⟩]
      Unhindered s (rs.map (Result.flight s.now)) [] → ∃ t, exec (e.1 f) s = .next t ∧ Issued s t rs) ∧
  ∀ e ∈ ([(.vcvtF32F16, fun h => fp16.decode h.toNat), (.vcvtF32Bf16, fun h => bf16.decode h.toNat),
      (.vfromlogLm16, fun h => (lm16Decode h.toNat).toNum 256)] : List ((VSlot → Instr) × (BitVec 16 → Machine.Num))),
    ∀ (f : VSlot) (s : State), Opens s → Named s.cur f.vd.toNat → Named s.cur f.va.toNat →
      let a := fun l => (s.vsrc f.va).lane l
      let r := fun l => fp32.ofNum .rne 0 (e.2 ((a l).val.extractLsb' (16 * (f.imm.toNat % 2)) 16))
      let x : Nat → LaneVal := fun l => { val := BitVec.ofNat 32 (r l).1, poison := (a l).poison }
      let rs : List Result := [⟨4, .vector (s.cur.veff f.vd.toNat) (lanesOut s f x), unitFlags s f 64 x fun l => (r l).2⟩]
      Unhindered s (rs.map (Result.flight s.now)) [] → ∃ t, exec (e.1 f) s = .next t ∧ Issued s t rs

/-- 06 R157 to R159: blocks in registers. -/
def Obligations.BlocksInRegisters : Prop :=
  ∀ e ∈ ([(.vbpackLb8, .vbunpLb8, lb8, 18), (.vbpackLb6, .vbunpLb6, lb6, 14), (.vbpackLb4, .vbunpLb4, lb4, 10)] :
      List ((VSlot → Instr) × (VSlot → Instr) × BlkFmt × Nat)),
    ∀ (f : VSlot) (s : State), Opens s → Named s.cur f.vd.toNat → Named s.cur f.va.toNat →
      let B := e.2.2.1
      let BB := e.2.2.2
      let v := s.vsrc f.va
      let mode := RMode.ofCode f.rm.toNat
      let par := (s.vOp f).val.toNat
      let scm := f.imm.toNat % 4
      let scale := fun b => if scm = 0 then none else some (par / 2 ^ (8 * b) % 256)
      let subs := fun b => if scm = 2 then some ((List.range 4).map fun q => par / 2 ^ (32 + 8 * b + 2 * q) % 4) else none
      let enc := fun b => B.encode mode (fun k => drawOf s (16 * b + k) (16 * b + k)) (scale b) (subs b)
        ((List.range 16).map fun k => .lin (fp32.decode (v.lane (16 * b + k)).val.toNat))
      let bad := fun b => (List.range 16).any (fun k => (v.lane (16 * b + k)).poison) || (scm != 0 && (s.vOp f).poison)
      (f.me = 0#1 → scm ≠ 3 → ∃ w : VReg, w.length = 64 ∧
        (∀ y, y < 4 * BB → (w.lane (y / 4)).val.extractLsb' (8 * (y % 4)) 8 = (enc (y / BB)).1.getD (y % BB) 0) ∧
        (∀ i, i < 64 → ((w.lane i).poison = true ↔ ∃ y, y < 4 * BB ∧ y / 4 = i ∧ bad (y / BB) = true) ∧
          (BB ≤ i → w.lane i = {})) ∧
        let rs : List Result := [⟨6, .vector (s.cur.veff f.vd.toNat) (w.map some),
          orFlags ((List.range 4).map fun b => if bad b then 0 else (enc b).2)⟩]
        (Unhindered s (rs.map (Result.flight s.now)) [] → ∃ t, exec (e.1 f) s = .next t ∧ Issued s t rs)) ∧
      (let image := VReg.bytes v
       let blk := fun l => (image.drop (l / 16 * BB)).take BB
       let r := fun l => fp32.ofNum mode (drawOf s l l) ((B.decode ((blk l).map (·.1)) (l % 16)).toNum B.n)
       let x : Nat → LaneVal := fun l =>
         { val := BitVec.ofNat 32 (r l).1, poison := B.elemPoison ((blk l).map (·.2)) (l % 16) }
       let rs : List Result := [⟨6, .vector (s.cur.veff f.vd.toNat) (lanesOut s f x), unitFlags s f 64 x fun l => (r l).2⟩]
       Unhindered s (rs.map (Result.flight s.now)) [] → ∃ t, exec (e.2.1 f) s = .next t ∧ Issued s t rs)

/-- 06 R136, R141, R143, R160 to R163, Table 6.1: A64 and RDW in registers. That VFROMRDW.f32 of the NaN word sets NV and SAT is the
model's choice (log 18). -/
def Obligations.WideFormsInRegisters : Prop :=
  ∀ (f : VSlot) (s : State), Opens s →
    let mode := RMode.ofCode f.rm.toNat
    let par := s.vOp f
    let A := (par.val.truncate 16).toInt
    let A2 := ((par.val >>> 16).truncate 16).toInt
    let h := 32 * (f.imm.toNat % 2)
    let reg := fun (n : BitVec 6) (k : Nat) => s.cur.vreg (s.cur.veff (n.toNat + k))
    let pair := fun (n : BitVec 6) l => ((reg n 1).lane l).val ++ ((reg n 0).lane l).val
    let pairBad := fun (n : BitVec 6) l => ((reg n 0).lane l).poison || ((reg n 1).lane l).poison
    let bin := fun (n : BitVec 6) k e => ((reg n k).lane (2 * e + 1)).val ++ ((reg n k).lane (2 * e)).val
    let rdw := fun (n : BitVec 6) e => (⟨bin n 0 e, bin n 1 e, bin n 2 e⟩ : Rdw)
    let rdwBad := fun (n : BitVec 6) e => (List.range 6).any fun q => ((reg n (q / 2)).lane (2 * e + q % 2)).poison
    let half := fun (x : Word) (k : Nat) => (x >>> (32 * k)).truncate 32
    let a64 := fun (v : Nat → Word × Bool × Flags) (on : Nat → Bool) =>
      ([⟨4, .vector (s.cur.veff f.vd.toNat) ((List.range 64).map fun l => if on l then unitOf s f l { val := half (v l).1 0, poison := (v l).2.1 } else none),
         unitFlags s f 64 (fun l => { poison := (v l).2.1 }) (fun l => if on l then (v l).2.2 else 0)⟩,
        ⟨4, .vector (s.cur.veff (f.vd.toNat + 1))
          ((List.range 64).map fun l => if on l then unitOf s f l { val := half (v l).1 1, poison := (v l).2.1 } else none), 0⟩] : List Result)
    let triple := fun (lat : Nat) (v : Nat → Rdw × Bool × Flags) =>
      let member := fun (k : Nat) (b : Rdw → Word) (fl : Flags) =>
        (⟨lat, .vector (s.cur.veff (f.vd.toNat + k)) ((List.range 64).map fun l =>
          unitOf s f (l / 2) { val := half (b (v (l / 2)).1) (l % 2), poison := (v (l / 2)).2.1 }), fl⟩ : Result)
      [member 0 (·.b0) (unitFlags s f 32 (fun e => { poison := (v e).2.1 }) fun e => (v e).2.2), member 1 (·.b1) 0, member 2 (·.b2) 0]
    let single := fun (v : Nat → Lane × Bool × Flags) (on : Nat → Bool) =>
      ([⟨4, .vector (s.cur.veff f.vd.toNat) ((List.range 64).map fun l => if on l then unitOf s f l { val := (v l).1, poison := (v l).2.1 } else none),
         unitFlags s f 64 (fun l => { poison := (v l).2.1 }) (fun l => if on l then (v l).2.2 else 0)⟩] : List Result)
    let goes := fun (i : VSlot → Instr) (rs : List Result) =>
      Unhindered s (rs.map (Result.flight s.now)) [] → ∃ t, exec (i f) s = .next t ∧ Issued s t rs
    let group := fun (n : BitVec 6) size => NamesGroup s n.toNat size
    let x := fun l => (s.vsrc f.va).lane l
    let upper := fun l => decide (h ≤ l ∧ l < h + 32)
    (group f.vd 2 → group f.va 1 → goes .vcvtaF32 (a64 (fun l =>
      let r := a64OfNum mode (drawOf s l l) A (fp32.decode (x l).val.toNat)
      (BitVec.ofInt 64 r.1, (x l).poison || par.poison, r.2.2)) fun _ => true)) ∧
    (group f.vd 1 → group f.va 2 → goes .vcvtaA64 (single (fun l =>
      let r := fp32.ofNum mode (drawOf s l l) (a64ToNum A (pair f.va l).toInt)
      (BitVec.ofNat 32 r.1, pairBad f.va l || par.poison, r.2)) fun _ => true)) ∧
    (group f.vd 3 → group f.va 1 → goes .vtordwF32 (triple 4 fun e =>
      let r := Rdw.ofNum A false (fp32.decode (x (h + e)).val.toNat)
      (r.1, (x (h + e)).poison || par.poison, r.2))) ∧
    (group f.vd 3 → group f.va 2 → goes .vtordwA64 (triple 4 fun e =>
      let r := Rdw.ofNum A false (a64ToNum A2 (pair f.va (h + e)).toInt)
      (r.1, pairBad f.va (h + e) || par.poison, r.2))) ∧
    (group f.vd 3 → group f.va 3 → group f.vb 3 → goes .vaddrdw (triple 3 fun e =>
      ((rdw f.va e).add (rdw f.vb e), rdwBad f.va e || rdwBad f.vb e, 0))) ∧
    (group f.vd 1 → group f.va 3 → goes .vfromrdwF32 (single (fun l =>
      let w := rdw f.va (l - h)
      let r := fp32.ofNum mode (drawOf s l l) (w.toNum A)
      (BitVec.ofNat 32 r.1, rdwBad f.va (l - h) || par.poison, if w = Rdw.nanWord then flNV ||| flSAT else r.2)) upper)) ∧
    (group f.vd 2 → group f.va 3 → goes .vfromrdwA64 (a64 (fun l =>
      let r := a64OfNum mode (drawOf s l l) A2 ((rdw f.va (l - h)).toNum A)
      (BitVec.ofInt 64 r.1, rdwBad f.va (l - h) || par.poison, r.2.2)) upper))

/-- 06 R134 to R138: register-group traps and lazy fills. -/
def Obligations.RegisterGroupTraps : Prop :=
  (∀ i ∈ ([.vaddI32, .vaddI16, .vaddI8, .vsubI32, .vsubI16, .vsubI8, .vmulI32, .vmulI16, .vmulhI32, .vmulhN32, .vminI32, .vmaxI32,
      .vaddsI32, .vaddsI16, .vaddsI8, .vaddsN8, .vsubsI32, .vsubsI16, .vsubsI8, .vsubsN8, .vand, .vor, .vxor, .vandn, .vshl, .vshr,
      .vsar, .vaddF32, .vaddF16, .vaddBf16, .vsubF32, .vsubF16, .vsubBf16, .vmulF32, .vmulF16, .vmulBf16, .vminF32, .vminF16,
      .vminBf16, .vmaxF32, .vmaxF16, .vmaxBf16] : List (VSlot → Instr)),
    ∀ (f : VSlot) (s : State), Opens s →
      let below := fun (n : BitVec 6) => s.cur.veff n.toNat < s.cur.valloc.toNat
      let absent := fun (n : BitVec 6) => s.cur.veff n.toNat ∈ s.cur.absent
      let traps := fun (n : BitVec 6) => ∃ t, exec (i f) s = .next t ∧ Trapped s t 0x04 (n.zeroExtend 64)
      (∀ lat ∈ [2, 3, 5], Unhindered s [Result.flight s.now ⟨lat, .vector (s.cur.veff f.vd.toNat) [], 0⟩] []) →
      (¬below f.vd → traps f.vd) ∧ (below f.vd → ¬below f.va → traps f.va) ∧
      (below f.vd → below f.va → f.vs = 0#1 → ¬below f.vb → traps f.vb) ∧
      (below f.vd → below f.va → (f.vs = 0#1 → below f.vb) → (absent f.vd ∨ absent f.va ∨ (f.vs = 0#1 ∧ absent f.vb)) →
        s.cur.lockLeft = none → s.cur.inFtr = false → ∃ t, exec (i f) s = .next t ∧ Held s t .registerFill)) ∧
  ∀ (f : VSlot) (s : State), Opens s →
    let rs := fun (lat n : Nat) => (List.range n).map fun k => Result.flight s.now ⟨lat, .vector (s.cur.veff (f.vd.toNat + k)) [], 0⟩
    (Unhindered s (rs 3 3) [] → f.vd.toNat % 4 ≠ 0 → ∃ t, exec (.vaddrdw f) s = .next t ∧ Trapped s t 0x04 (f.vd.zeroExtend 64)) ∧
    (Unhindered s (rs 4 2) [] → f.vd.toNat % 2 = 1 → ∃ t, exec (.vcvtaF32 f) s = .next t ∧ Trapped s t 0x04 (f.vd.zeroExtend 64))

/-- 03 R69 to R76, R79, R80, R84, R85, 06 R145, R160: the formats whose values are linear, against exact rationals. Where both patterns
are not on one side of the least normal, UF is left to R69's tininess after rounding (log 15). -/
def Obligations.LinearAndWideFormats : Prop :=
  let value := fun (neg : Bool) (m : Nat) (e : Int) => (if neg then -1 else 1 : ℚ) * m * 2 ^ e
  (∀ e ∈ ([(fp32, 24, 8, -126), (fp16, 11, 5, -14), (bf16, 8, 8, -126)] : List (FpFmt × Nat × Nat × Int)),
    let F := e.1
    let p := e.2.1
    let eb := e.2.2.1
    let mag := binaryMag p e.2.2.2
    let top := (2 ^ eb - 1) * 2 ^ (p - 1)
    let sign := fun (neg : Bool) (pat : Nat) => (if neg then 2 ^ (p - 1 + eb) else 0) + pat
    (∀ neg pat, (pat < top → ∃ m : Nat, ∃ x : Int, F.decode (sign neg pat) = .fin neg m x ∧ (m : ℚ) * 2 ^ x = mag pat) ∧
      F.decode (sign neg top) = .inf neg ∧
      (top < pat → pat < 2 ^ (p - 1 + eb) → F.decode (sign neg pat) = .nan (decide (pat < top + 2 ^ (p - 2))))) ∧
    (∀ mode d, (∀ sig, F.ofNum mode d (.nan sig) = (top + 2 ^ (p - 2), if sig then flNV else 0)) ∧
      (∀ neg, F.ofNum mode d (.inf neg) = (sign neg top, 0)) ∧ ∀ neg x, F.ofNum mode d (.fin neg 0 x) = (sign neg 0, 0)) ∧
    ∀ mode d neg (m : Nat) (q : Int), 0 < m →
      let x : ℚ := m * 2 ^ q
      let r := F.ofNum mode d (.fin neg m q)
      (∀ pat, pat < top → mag pat ≤ x → x < mag (pat + 1) →
        (x = mag pat → r = (sign neg pat, 0)) ∧
        (x ≠ mag pat →
          (mode = .stp → pat + 1 = top → r = (sign neg pat, flSAT ||| flNX)) ∧
          (mode ≠ .stp ∨ pat + 1 ≠ top → ∀ near,
            (RoundsAway mode neg (decide (pat % 2 = 1)) d (mag pat) x (mag (pat + 1)) → near = pat + 1) →
            (¬RoundsAway mode neg (decide (pat % 2 = 1)) d (mag pat) x (mag (pat + 1)) → near = pat) →
            (near = top → r = (sign neg top, flOF ||| flNX)) ∧
            (near < top → r.1 = sign neg near ∧ (r.2 = flNX ∨ r.2 = flNX ||| flUF) ∧
              (pat + 1 < 2 ^ (p - 1) → r.2 = flNX ||| flUF) ∧ (2 ^ (p - 1) ≤ pat → r.2 = flNX))))) ∧
      (mag top ≤ x → r = match mode with
        | .rne => (sign neg top, flOF ||| flNX)
        | .rtz => (sign neg (top - 1), flOF ||| flNX)
        | .rdn => (sign neg (if neg then top else top - 1), flOF ||| flNX)
        | .rup => (sign neg (if neg then top - 1 else top), flOF ||| flNX)
        | .stp => (sign neg (top - 1), flSAT ||| flNX))) ∧
  (∀ mode n1 m1 e1 n2 m2 e2,
    let a : Machine.Num := .fin n1 m1 e1
    let b : Machine.Num := .fin n2 m2 e2
    (∃ n m e, Machine.Num.add mode a b = (.fin n m e, 0) ∧ value n m e = value n1 m1 e1 + value n2 m2 e2 ∧
      (m = 0 → n = if n1 = n2 then n1 else decide (mode = .rdn))) ∧
    (∃ n m e, Machine.Num.mul a b = (.fin n m e, 0) ∧ value n m e = value n1 m1 e1 * value n2 m2 e2 ∧ n = (n1 != n2)) ∧
    (∀ n3 m3 e3, ∃ n m e, Machine.Num.fma mode a b (.fin n3 m3 e3) = (.fin n m e, 0) ∧
      value n m e = value n1 m1 e1 * value n2 m2 e2 + value n3 m3 e3) ∧
    Machine.Num.add mode (.inf n1) (.inf n2) = (if n1 = n2 then (.inf n1, 0) else (.nan false, flNV)) ∧
    Machine.Num.add mode (.inf n1) b = (.inf n1, 0) ∧ Machine.Num.add mode a (.inf n2) = (.inf n2, 0) ∧
    Machine.Num.mul (.inf n1) b = (if m2 = 0 then (.nan false, flNV) else (.inf (n1 != n2), 0))) ∧
  (∀ mode d neg (m : Nat) (e : Int),
    let x : ℚ := m * 2 ^ e
    let k := x.floor
    ∃ z : Int × Bool, roundInt mode d neg m e = z ∧
      (x = k → z = (if neg then -k else k, false)) ∧
      (x ≠ k → RoundsAway mode neg (decide (k % 2 = 1)) d k x (k + 1) → z = (if neg then -(k + 1) else k + 1, true)) ∧
      (x ≠ k → ¬RoundsAway mode neg (decide (k % 2 = 1)) d k x (k + 1) → z = (if neg then -k else k, true)) ∧
      ∀ lo hi : Int, lo ≤ hi →
        numToInt mode d lo hi (.fin neg m e) =
            (if z.1 < lo then (lo, flNV) else if hi < z.1 then (hi, flNV) else (z.1, if z.2 then flNX else 0)) ∧
          (∀ sig, numToInt mode d lo hi (.nan sig) = (0, flNV)) ∧ ∀ n, numToInt mode d lo hi (.inf n) = (if n then lo else hi, flNV)) ∧
  (∀ mode d (A : Int),
    let big : Int := 2 ^ 63 - 1
    (∀ sig, a64OfNum mode d A (.nan sig) = (0, true, flNV ||| flSAT)) ∧
    (∀ neg, a64OfNum mode d A (.inf neg) = (if neg then -big else big, true, flSAT)) ∧
    (∀ acc, ∃ m, a64ToNum A acc = .fin (decide (acc < 0)) m (A - 40) ∧ m = acc.natAbs) ∧
    ∀ neg (m : Nat) (e : Int),
      let z := roundInt mode d neg m (e + 40 - A)
      let held := if neg then -big else big
      (mode = .stp → (big : ℚ) < (m : ℚ) * 2 ^ (e + 40 - A) → a64OfNum mode d A (.fin neg m e) = (held, true, flSAT ||| flNX)) ∧
      (mode ≠ .stp ∨ (m : ℚ) * 2 ^ (e + 40 - A) ≤ big →
        a64OfNum mode d A (.fin neg m e) = (if -2 ^ 63 ≤ z.1 ∧ z.1 ≤ big then (z.1, false, if z.2 then flNX else 0)
          else (held, true, (if z.2 then flNX else 0) ||| flSAT)))) ∧
  ∀ (q : Int) (srcSat : Bool),
    let nan : Rdw := ⟨0, 0, 0x8000000000000000#64⟩
    let bins := fun (w : Rdw) => w.b0.toInt + w.b1.toInt * 2 ^ 40 + w.b2.toInt * 2 ^ 80
    let fresh := fun (w : Rdw) (big : Int) => bins w = big ∧ w.b0.toNat < 2 ^ 40 ∧ w.b1.toNat < 2 ^ 40
    (∀ sig, Rdw.ofNum q srcSat (.nan sig) = (nan, (if sig then flNV else 0) ||| if srcSat then flSAT else 0)) ∧
    (∀ neg, fresh (Rdw.ofNum q srcSat (.inf neg)).1 (if neg then -2 ^ 119 else 2 ^ 119 - 1) ∧ (Rdw.ofNum q srcSat (.inf neg)).2 = flSAT) ∧
    (∀ neg (m : Nat) (e : Int),
      let z := (roundInt .rne 0 neg m (e - q)).1
      let big := max (-2 ^ 119) (min (2 ^ 119 - 1) z)
      fresh (Rdw.ofNum q srcSat (.fin neg m e)).1 big ∧
        (Rdw.ofNum q srcSat (.fin neg m e)).2 = (if z ≠ big ∨ srcSat = true then flSAT else 0)) ∧
    (∀ u w : Rdw, (u = nan ∨ w = nan → u.add w = nan) ∧
      (u ≠ nan → w ≠ nan → u.add w = ⟨u.b0 + w.b0, u.b1 + w.b1, u.b2 + w.b2⟩)) ∧
    ∀ u : Rdw, (u = nan → u.toNum q = .nan false) ∧ (u ≠ nan → u.toNum q = .fin (decide (bins u < 0)) (bins u).natAbs q)

/-- 03 R61 to R68, R77 to R80, 06 R158: the log grids and formats. A source that stipple holds at the largest magnitude (R80), like an
infinity, stands above every code; which magnitude that is under a given scale is log 15. -/
def Obligations.LogFormats : Prop :=
  (∀ n ∈ [2, 4, 8, 256], ∀ j, j < n →
    (2 * gridTab n j - 1) ^ n < 2 ^ (j + 24 * n) ∧ 2 ^ (j + 24 * n) < (2 * gridTab n j + 1) ^ n ∧
    ∀ q : Int, lin (n * q + j) n = (gridTab n j, q - 23)) ∧
  (List.range 8).map (gridTab 8) = [8388608, 9147842, 9975792, 10878679, 11863283, 12937002, 14107901, 15384775] ∧
  (∀ n ∈ [2, 4, 8, 256], ∀ mode d neg (m : Nat) (e a : Int), 0 < m →
    let x : ℚ := m * 2 ^ e
    let lo := linMag n a
    let hi := linMag n (a + 1)
    let away := RoundsAway mode neg (decide (a % 2 = 1)) d lo x hi
    lo ≤ x → x < hi →
      (x = lo → roundLinToGrid n mode d neg m e = (a, false)) ∧
      (x ≠ lo → away → roundLinToGrid n mode d neg m e = (a + 1, true)) ∧
      (x ≠ lo → ¬away → roundLinToGrid n mode d neg m e = (a, true))) ∧
  (∀ (nd k : Nat) mode d neg (h : Int), 0 < nd → 0 < k →
    (roundLogToGrid nd (nd * k) mode d neg h = (h * k, false)) ∧
    (1 < k → ∀ a : Int, a * k ≤ h → h < (a + 1) * k →
      let away := RoundsAway mode neg (decide (a % 2 = 1)) d (a * k) h ((a + 1) * k)
      (h = a * k → roundLogToGrid (nd * k) nd mode d neg h = (a, false)) ∧
      (h ≠ a * k → away → roundLogToGrid (nd * k) nd mode d neg h = (a + 1, true)) ∧
      (h ≠ a * k → ¬away → roundLogToGrid (nd * k) nd mode d neg h = (a, true)))) ∧
  (∀ w, w < 0x10000 → lm16Decode w =
    (if w = 0x8000 then .nan else if w = 0 then .zero else .num (decide (0x8000 ≤ w)) ((w % 0x8000 : Nat) - 16384))) ∧
  (∀ mode d neg (m : Nat) (e : Int), 0 < m →
    let g := roundLinToGrid 256 mode d neg m e
    let s := if neg then 0x8000 else 0
    let nx : Flags := if g.2 then flNX else 0
    let held := mode = .stp ∧ linMag 256 16383 < m * 2 ^ e
    (held → lm16OfNum mode d (.fin neg m e) = (s + 0x7FFF, flSAT ||| flNX)) ∧
    (¬held → lm16OfNum mode d (.fin neg m e) =
      (if g.1 < -16383 then (0, flUF ||| flNX ||| nx) else if 16383 < g.1 then (s + 0x7FFF, flSAT ||| nx)
       else (s + (g.1 + 16384).toNat, nx)))) ∧
  ∀ e ∈ ([(lb8, 8, 64, 18), (lb6, 4, 16, 14), (lb4, 2, 4, 10)] : List (BlkFmt × Nat × Nat × Nat)),
    let B := e.1
    let n := e.2.1
    let b := e.2.2.1
    let BB := e.2.2.2
    -- the element field of element k, sign and code together, and its sub-scale
    let field := fun (blk : List Byte) (k : Nat) =>
      if b = 64 then (blk.getD (2 + k) 0).toNat
      else if b = 16 then ofBytes (blk.drop 2) / 2 ^ (6 * k) % 64
      else (blk.getD (2 + k / 2) 0).toNat / 2 ^ (4 * (k % 2)) % 16
    let sub := fun (blk : List Byte) (k : Nat) => (blk.getD 1 0).toNat / 4 ^ (k / 4) % 4
    (∀ (blk : List Byte) k, blk.length = BB → k < 16 →
      let E := (blk.getD 0 0).toNat
      let c := field blk k % (2 * b)
      B.decode blk k = (if E = 0 then .zero else if E = 255 then .nan else if c = 0 then .zero
        else .num (decide (2 * b ≤ field blk k)) (n * ((E : Int) - 127) - (b / 2 : Nat) * sub blk k + ((c : Int) - b)))) ∧
    -- E: the scale byte given, ss: the sub-scales given
    ∀ mode (d : Nat → Nat) (E : Option Nat) (ss : Option (List Nat)) (xs : List BlkSrc), xs.length = 16 → (∀ v, E = some v → v < 256) →
      (∀ l, ss = some l → E ≠ none ∧ ∀ i, l.getD i 0 < 4) →
      let r := B.encode mode d E ss xs
      let nans := 0xFF#8 :: List.replicate (BB - 1) 0#8
      ((∃ x ∈ xs, x.isNan = true) → r.1 = nans ∧ (BlkSrc.lin (.nan true) ∈ xs → r.2 = flNV) ∧ (BlkSrc.lin (.nan true) ∉ xs → r.2 = 0)) ∧
      ((∀ x ∈ xs, x.isNan = false) →
        (E = some 255 → r = (nans, 0)) ∧
        (E ≠ some 255 → (∀ x ∈ xs, x.isZero = true) → r = (List.replicate BB 0#8, 0)) ∧
        (E = some 0 → (∃ x ∈ xs, x.isZero = false) → r = (List.replicate BB 0#8, flNX ||| flUF))) ∧
      -- nz: the nonzero sources; g: their indices and signs; ix: which were inexact
      ∀ (nz ix : Nat → Prop) (g : Nat → Int) (neg : Nat → Bool),
        (∀ k, k < 16 → (∃ q, xs[k]? = some (.lin (.inf q)) ∧ nz k ∧ ¬ix k ∧ g k = 2 ^ 30 ∧ neg k = q) ∨
          ((∃ q x, xs[k]? = some (.lin (.fin q 0 x))) ∨ (∃ ns, xs[k]? = some (.log ns .zero))) ∧ ¬nz k ∧ ¬ix k ∨
          (∃ ns q h, xs[k]? = some (.log ns (.num q h)) ∧ nz k ∧ neg k = q ∧
            (ix k ↔ (roundLogToGrid ns n mode (d k) q h).2 = true) ∧ g k = (roundLogToGrid ns n mode (d k) q h).1) ∨
          (∃ q, ∃ m : Nat, ∃ x : Int, 0 < m ∧ xs[k]? = some (.lin (.fin q m x)) ∧ nz k ∧ neg k = q ∧
            let top : Int := match E with | some v => n * ((v : Int) - 127) + b - 1 - (b / 2 : Nat) * (ss.getD []).getD (k / 4) 0 | none => n * 127 + b - 1
            let held := mode = .stp ∧ linMag n top < m * 2 ^ x
            (held → ix k ∧ g k = 2 ^ 30) ∧
            (¬held → (ix k ↔ (roundLinToGrid n mode (d k) q m x).2 = true) ∧ g k = (roundLinToGrid n mode (d k) q m x).1))) →
        E ≠ some 0 → E ≠ some 255 → ∀ M, (∃ k, k < 16 ∧ nz k ∧ g k = M) → (∀ k, k < 16 → nz k → g k ≤ M) →
          let top : Int := match E with | some v => v - 127 | none => min (max (-((-(M - (b - 1))) / n)) (-126)) 127
          let code := fun (sg k : Nat) => g k - n * top + b + (b / 2 : Nat) * sg
          r.1.length = BB ∧ (∀ k, k < 16 → B.decode r.1 k = .zero → field r.1 k = 0) ∧
          (∀ k, k < 16 → (∀ j, j < 16 → j / 4 = k / 4 → B.decode r.1 j = .zero) → sub r.1 k = 0) ∧
          ∃ sg : Nat → Nat, (∀ k, sg k = sg (k / 4 * 4)) ∧ (∀ l k, ss = some l → sg k = l.getD (k / 4) 0) ∧
            (∀ k, k < 16 → B.decode r.1 k = .zero ∧ (nz k → code (sg k) k < 1) ∨
              nz k ∧ 1 ≤ code (sg k) k ∧ B.decode r.1 k = .num (neg k) (g k - max 0 (code (sg k) k - (2 * b - 1)))) ∧
            (r.1 = List.replicate BB 0#8 ∧ (∀ k, k < 16 → nz k → code (if ss = none then 3 else sg k) k < 1) ∨
              (r.1.getD 0 0).toNat = (top + 127).toNat ∧
              ∀ k, k < 16 → nz k → 1 ≤ code (sg k) k →
                sg k = sub r.1 k ∧ sg k ≤ 3 ∧ (ss = none →
                (0 < sg k → (∃ j, j < 16 ∧ j / 4 = k / 4 ∧ nz j ∧ code (sg k - 1) j < 1) ∧
                  ∀ j, j < 16 → j / 4 = k / 4 → nz j → code (sg k) j ≤ 2 * b - 1) ∧
                (sg k < 3 → (∀ j, j < 16 → j / 4 = k / 4 → nz j → 1 ≤ code (sg k) j) ∨
                  ∃ j, j < 16 ∧ j / 4 = k / 4 ∧ nz j ∧ 2 * b - 1 < code (sg k + 1) j))) ∧
            ∀ i, i < 6 → (r.2.getLsbD i = true ↔
              (i = 5 ∧ ∃ k, k < 16 ∧ nz k ∧ 2 * b - 1 < code (sg k) k) ∨
              (i = 3 ∧ ∃ k, k < 16 ∧ nz k ∧ code (sg k) k < 1) ∨
              (i = 4 ∧ ((∃ k, k < 16 ∧ nz k ∧ code (sg k) k < 1) ∨ ∃ k, k < 16 ∧ ix k)))

/-- 04 R90, R92, R98, R99, R102, R105 to R114: acceptance of matrix commands. That a WLOADW of pages under a key slot that is not usable
(12 R332) traps last of its checks, with the page's address, is the model's choice (log 89). -/
def Obligations.MatrixAccepted : Prop :=
  ∀ (f : MSlot) (s : State), Opens s → Unhindered s [] [] → s.cur.syncFails (s.cur.syncReg f.sy.toNat) = [] →
    (s.curTile.mq.filter fun m => m.head.st == .queued && !m.head.begunOnce).length < 4 →
    let a := s.plainOp f.sa
    let b := s.plainOp f.sb
    let x := s.curTile
    let loaders := x.loaders
    let ar := f.ar.toNat
    let os := f.os.toNat
    let ot := f.ot.toNat
    let cmd := fun (op : MOp) =>
      ({ head := { id := s.nextId, ctx := s.issue.ctx, pc := s.issue.pc, slot := 5, sync := s.cur.syncReg f.sy.toNat, syNum := f.sy.toNat
                   seed := s.cur.seed, step := s.cur.stepReg, region := s.cur.regionNo, issued := s.now }
         op := op, ar := ar, ot := ot, os := os, a := a.val, b := b.val, entry := s.cur.entryIndex, loader := loaders - 1
         hasSet := decide (0 < loaders) } : MCmd)
    let accepts := fun (i : MSlot → Instr) (base : State) (c : MCmd) =>
      ∃ t, exec (i f) s = .next t ∧
        Went { (base.modCurTile fun x => { x with mq := x.mq ++ [c] }) with nextId := s.nextId + 1 } t [] s.issue.nextPc false
    let claimed := fun n => FMap.get? x.claims n = some s.issue.ctx
    let loads := s.modCurTile fun x => { x with loaders := loaders + 1 }
    (claimed os → claimed ot → accepts .wload loads { cmd .wload with loader := loaders, hasSet := true }) ∧
    (∀ n y, s.cur.layoutOf a.val = some (n, y) → a.poison = false → b.poison = false →
      y.space = 1 → y.canRead = true → bits y.va 33 32 = dieOf s.issue.tile →
      let c := b.val.toNat
      let first := c % 2 ^ 32
      let pitch := c / 2 ^ 32 % 2 ^ 16
      c < 2 ^ 52 → (c / 2 ^ 48 % 8 = 0 ∨ c / 2 ^ 48 % 8 = 4) → first % 2 = 0 → pitch % 2 = 0 → 256 ≤ pitch →
      first + 127 * pitch + 256 ≤ y.len → (c / 2 ^ 51 % 2 = 1 → claimed os) →
      let pages := cutSegs y.segs first (127 * pitch + 256)
      ((∀ g ∈ pages, s.keyUsable g.key s.cur.tenant.toNat = true) →
        accepts .wloadw loads { cmd .wloadw with loader := loaders, hasSet := true, segs := y.segs }) ∧
      ∀ g, pages.find? (fun g => !s.keyUsable g.key s.cur.tenant.toNat) = some g →
        ∃ t, exec (.wloadw f) s = .next t ∧ Trapped s t 0x17 (BitVec.ofNat 64 g.va)) ∧
    (∀ e ∈ ([(.streamAdd, false, false), (.streamOvw, false, true), (.streamTAdd, true, false), (.streamTOvw, true, true)] :
        List ((MSlot → Instr) × Bool × Bool)),
      let c := a.val.toNat
      let cnt := c % 2 ^ 7 + 1
      a.poison = false → c < 2 ^ 23 → c / 2 ^ 15 % 2 = 0 → c / 2 ^ 7 % 2 = 0 →
      c / 2 ^ 8 % 2 ^ 7 + (cnt - 1) * (c / 2 ^ 16 % 2 ^ 7 + 1) ≤ 127 → ar + cnt ≤ 1024 → claimed os → (e.2.1 = false → claimed ot) →
      accepts e.1 s (cmd (.stream e.2.1 e.2.2))) ∧
    (∀ e ∈ ([(.drain, false), (.drainRdw, true)] : List ((MSlot → Instr) × Bool)),
      let c := b.val.toNat
      let n := c % 2 ^ 10 + 1
      let om := c / 2 ^ 16 % 2
      a.poison = false → b.poison = false → c / 2 ^ 10 % 2 ^ 6 = 0 → c / 2 ^ 18 % 2 ^ 30 = 0 →
      (e.2 = false → c < 2 ^ 48) → (e.2 = true → om = 0) → ar + n ≤ 1024 → (om = 1 → n ≤ 128 ∧ claimed os) →
      (om = 0 → a.val.toNat % 64 = 0 ∧ a.val.toNat < 0x400000 ∧ (e.2 = true → a.val.toNat + 3072 * n ≤ 0x400000)) →
      accepts e.1 s (cmd (.drain e.2))) ∧
    (a.poison = false → a.val.toNat < 2 ^ 10 → ar + a.val.toNat + 1 ≤ 1024 → accepts .accclr s (cmd .accclr)) ∧
    (a.poison = false → -32768 ≤ a.val.toInt → a.val.toInt ≤ 32767 → accepts .anchor s (cmd .anchor)) ∧
    ((∀ i, os ≤ i → i ≤ ot → FMap.get? x.claims i = none ∨ claimed i) → ∃ claims',
      (∀ i, FMap.get? claims' i = if os ≤ i ∧ i ≤ ot then some s.issue.ctx else FMap.get? x.claims i) ∧
      accepts .oclaim (s.modCurTile fun x => { x with claims := claims' }) (cmd .oclaim)) ∧
    accepts .orelease s (cmd .orelease) ∧
    ((ot % 2 = 1 → a.poison = false ∧ a.val.toNat % 8 = 0 ∧ a.val.toNat < 0x400000) →
      accepts .fmtsel (s.modCur fun k => { k with fmtsel := BitVec.ofNat 4 os }) (cmd .fmtsel)) ∧
    ((∀ i, ar / 16 ≤ i → i ≤ ar / 16 + os → FMap.get? x.pins i = none ∨ FMap.get? x.pins i = some s.issue.ctx) → ∃ pins',
      (∀ i, FMap.get? pins' i = if ar / 16 ≤ i ∧ i ≤ ar / 16 + os then some s.issue.ctx else FMap.get? x.pins i) ∧
      accepts .accpin (s.modCurTile fun x => { x with pins := pins' }) (cmd (.accpin false))) ∧
    accepts .accpinClr s (cmd (.accpin true))

/-- 04 R92, R99, R102, R107, 11 R298: what keeps a STREAM from being accepted, in the order of R102. That
TRAPADDR holds AR for rows past 1,023 is the model's choice (log 79), and so is that the sync register's range comes after the form's own
checks, and the queue's room last (log 49). -/
def Obligations.MatrixRefused : Prop :=
  ∀ e ∈ ([(.streamAdd, false), (.streamOvw, false), (.streamTAdd, true), (.streamTOvw, true)] : List ((MSlot → Instr) × Bool)),
    ∀ (f : MSlot) (s : State), Opens s → Unhindered s [] [] →
      let a := s.plainOp f.sa
      let c := a.val.toNat
      let cnt := c % 2 ^ 7 + 1
      let ar := f.ar.toNat
      let traps := fun cause addr => ∃ t, exec (e.1 f) s = .next t ∧ Trapped s t cause addr
      let claimed := fun n => FMap.get? s.curTile.claims n = some s.issue.ctx
      let word := c < 2 ^ 23 ∧ c / 2 ^ 15 % 2 = 0 ∧ c / 2 ^ 7 % 2 = 0 ∧ c / 2 ^ 8 % 2 ^ 7 + (cnt - 1) * (c / 2 ^ 16 % 2 ^ 7 + 1) ≤ 127
      let y := s.cur.syncReg f.sy.toNat
      let live := y.thr ≠ 0 ∨ y.inc ≠ 0
      let cnts := s.cur.semcnt.toNat
      (a.poison = true → traps 0x10 a.val) ∧ (a.poison = false → ¬word → traps 0x1A a.val) ∧
      (a.poison = false → word → 1024 < ar + cnt → traps 0x1A (f.ar.zeroExtend 64)) ∧
      (a.poison = false → word → ar + cnt ≤ 1024 →
        (¬claimed f.os.toNat → traps 0x1A (f.os.zeroExtend 64)) ∧
        (claimed f.os.toNat → e.2 = false → ¬claimed f.ot.toNat → traps 0x1A (f.ot.zeroExtend 64)) ∧
        (claimed f.os.toNat → (e.2 = false → claimed f.ot.toNat) →
          (live → cnts ≤ y.wsem.toNat → traps 0x1E (y.wsem.zeroExtend 64)) ∧
          (live → y.wsem.toNat < cnts → cnts ≤ y.ssem.toNat → traps 0x1E (y.ssem.zeroExtend 64)) ∧
          ((live → y.wsem.toNat < cnts ∧ y.ssem.toNat < cnts) →
            4 ≤ (s.curTile.mq.filter fun m => m.head.st == .queued && !m.head.begunOnce).length →
            s.cur.lockLeft = none → s.cur.inFtr = false → ∃ t, exec (e.1 f) s = .next t ∧ Held s t .matrixBusy)))

/-- 09 R214, R217, R219 to R223: acceptance of the copying forms. -/
def Obligations.TransfersAccepted : Prop :=
  ∀ (f : XSlot) (s : State), Opens s → Unhindered s [] [] → s.cur.syncFails (s.cur.syncReg f.sy.toNat) = [] →
    (s.curTile.xq.filter fun y => y.ch == f.ch.toNat).length < 4 →
    let a := s.plainOp f.sa
    let b := s.plainOp f.sb
    let c := s.plainOp f.sc
    let d := s.plainOp f.sd
    let accepts := fun (i : XSlot → Instr) (op : XOp) (into from' index : Arg) =>
      -- a layout record that covers every global range translates them all; the footprint's first address names too many translations
      let ranges := into.ranges true ++ from'.ranges false
      let lay := s.layoutOver s.cur ranges
      let dst := s.find into true lay (s.firstOver ranges)
      let src := s.find from' false lay (s.firstOver ranges)
      let list := s.find index false lay (s.firstOver ranges)
      dst.before = [] → src.before = [] → dst.after = [] → src.after = [] → (dst.idents ++ src.idents).eraseDups.length ≤ 64 →
      (∀ x ∈ dst.side.segs, ∀ y ∈ src.side.segs ++ list.side.segs, x.meets y = false) →
      let cmd : XCmd :=
        { head := { id := s.nextId, ctx := s.issue.ctx, pc := s.issue.pc, slot := 6, sync := s.cur.syncReg f.sy.toNat, syNum := f.sy.toNat
                    seed := s.cur.seed, step := s.cur.stepReg, region := s.cur.regionNo, issued := s.now }
          op := op, ch := f.ch.toNat, td := f.td.toNat, ord := f.ord.toNat, a := a.val, b := b.val, c := c.val, d := d.val
          tenant := s.cur.tenant.toNat, dst := dst.side, src := src.side, list := list.side
          reads := src.side.segs ++ list.side.segs, writes := dst.side.segs, idents := dst.idents ++ src.idents
          layouts := dst.layout ++ src.layout }
      ∃ t, exec (i f) s = .next t ∧
        Went { (s.modCurTile fun x => { x with xq := x.xq ++ [cmd] }) with nextId := s.nextId + 1 } t [] s.issue.nextPc false
    a.poison = false → b.poison = false → c.poison = false →
    let n := c.val.toNat
    (n ≤ 2 ^ 27 →
      accepts .copy .copy (.glob a.val n) (.glob b.val n) .none ∧
      (a.val.toNat + n ≤ 0x400000 → accepts .get .copy (.near a.val n) (.glob b.val n) .none) ∧
      (b.val.toNat + n ≤ 0x400000 → accepts .put .copy (.glob a.val n) (.near b.val n) .none)) ∧
    (d.poison = false →
      let w := d.val.toNat
      let span := w / 2 ^ 40
      let idx := if w / 2 ^ 29 % 2 = 1 then 8 else 4
      let len := w / 2 ^ 16 % 2 ^ 13
      let cnt := w % 2 ^ 15 + 1
      w / 2 ^ 31 % 2 ^ 9 = 0 → w / 2 ^ 15 % 2 = 0 → 0 < span → 0 < len → len ≤ 4096 →
      c.val.toNat % idx = 0 → c.val.toNat + cnt * idx ≤ 0x400000 →
      (a.val.toNat + cnt * len ≤ 0x400000 →
        accepts .gather .gather (.near a.val (cnt * len)) (.glob b.val (4096 * span)) (.near c.val (cnt * idx))) ∧
      (b.val.toNat + cnt * len ≤ 0x400000 →
        accepts .scatter .scatter (.glob a.val (4096 * span)) (.near b.val (cnt * len)) (.near c.val (cnt * idx)))) ∧
    -- what a local operand stands for, and a global one that passes the checks of R189
    ∀ lay first write (v : Word) n,
      s.find (.near v n) write lay first = { side := { va := v.toNat, len := n, segs :=
        if n = 0 then [] else [{ va := v.toNat, space := .scratch s.issue.tile, off := v.toNat, len := n }] } } ∧
      (s.globalFails s.cur v n = [] → 0 < n →
        let p := s.place s.issue.tile s.cur v n write lay first
        s.find (.glob v n) write lay first =
          { side := { va := v.toNat, len := n, segs := p.segs }, after := p.checks, idents := p.idents, layout := p.layout })

/-- 09 R226 to R228, R238 to R241; 13 R359. That a dropped record is empty from its command's issue on is the model's choice (log 66). -/
def Obligations.LayoutAndSheetCommands : Prop :=
  ∀ (f : XSlot) (s : State), Opens s → Unhindered s [] [] →
    let a := s.plainOp f.sa
    let b := s.plainOp f.sb
    let c := s.plainOp f.sc
    let d := s.plainOp f.sd
    let ch := f.ch.toNat
    let cmd := fun (op : XOp) =>
      ({ head := { id := s.nextId, ctx := s.issue.ctx, pc := s.issue.pc, slot := 6, sync := s.cur.syncReg f.sy.toNat, syNum := f.sy.toNat
                   seed := s.cur.seed, step := s.cur.stepReg, region := s.cur.regionNo, issued := s.now }
         op := op, ch := ch, td := f.td.toNat, ord := f.ord.toNat, a := a.val, b := b.val, c := c.val, d := d.val
         tenant := s.cur.tenant.toNat } : XCmd)
    let accepts := fun (i : XSlot → Instr) (base : State) (x : XCmd) (nonRep : Bool) =>
      s.cur.syncFails (s.cur.syncReg f.sy.toNat) = [] → (s.curTile.xq.filter fun y => y.ch == ch).length < 4 →
      ∃ t, exec (i f) s = .next t ∧
        Went { (base.modCurTile fun y => { y with xq := y.xq ++ [x] }) with nextId := s.nextId + 1 } t [] s.issue.nextPc nonRep
    a.poison = false →
    (b.poison = false → c.poison = false → s.layoutRange a.val b.val.toNat ≠ none → 0 < b.val.toNat → b.val.toNat ≤ 2 ^ 36 →
      0 < c.val.toNat → c.val.toNat ≤ 3 → accepts .layreg s (cmd .layreg) true) ∧
    (∀ i y, s.cur.layoutOf a.val = some (i, y) →
      accepts .laydrop (s.modCur fun k => { k with layouts := FMap.insert k.layouts i { gen := if y.gen = 0xFFFF then 1 else y.gen + 1 } })
        { cmd .laydrop with layouts := [i], pinCount := y.pins, pinned := y.segs } true) ∧
    (b.poison = false → a.val.toNat % 64 = 0 → b.val.toNat % 64 = 0 → a.val.toNat + b.val.toNat ≤ 0x400000 → ∃ t watched',
      exec (.wmset f) s = .next t ∧ Went (s.modCur fun k => { k with watched := watched' }) t [] s.issue.nextPc false ∧
      (∀ j, FMap.get? watched' j = if j ≠ ch then FMap.get? s.cur.watched j
        else if b.val = 0 then none else some (a.val.toNat, a.val.toNat + b.val.toNat))) ∧
    (let w := a.val.toNat
     w < 2 ^ 19 → (w / 2 ^ 18 = 1 → w / 2 ^ 15 % 2 ^ 3 = 0) → w / 4 % 4 ≠ 0 → w % 4 ≠ 3 → accepts .smalloc s (cmd .smalloc) true) ∧
    (∀ gen sw mir n, GAddr.ofWord a.val = some (.switch gen sw mir n 0) →
      let h := s.sheet sw n
      h.named sw = true → h.gen.toNat = gen → h.mir = mir →
      accepts .smfree s
        { cmd .smfree with writes := [{ va := a.val.toNat, space := .switch sw, off := n * 0x200000, len := 0x200000, ord := h.ord, key := h.key }] }
        true) ∧
    (a.val.toNat < 128 → a.val.toNat % 16 ≤ 5 → accepts .smquery s (cmd .smquery) false)

/-- 09 R219, R237, R242, R243. -/
def Obligations.SheetAccesses : Prop :=
  ∀ (f : XSlot) (s : State), Opens s → Unhindered s [] [] → s.cur.syncFails (s.cur.syncReg f.sy.toNat) = [] →
    (s.curTile.xq.filter fun y => y.ch == f.ch.toNat).length < 4 →
    let h := s.plainOp f.sa
    let o := s.plainOp f.sb
    let c := s.plainOp f.sc
    let d := s.plainOp f.sd
    let x := h.val + o.val
    let cmd := fun (op : XOp) (ord : Nat) =>
      ({ head := { id := s.nextId, ctx := s.issue.ctx, pc := s.issue.pc, slot := 6, sync := s.cur.syncReg f.sy.toNat, syNum := f.sy.toNat
                   seed := s.cur.seed, step := s.cur.stepReg, region := s.cur.regionNo, issued := s.now }
         op := op, ch := f.ch.toNat, td := f.td.toNat, ord := ord, a := h.val, b := o.val, c := c.val, d := d.val
         tenant := s.cur.tenant.toNat } : XCmd)
    let accepts := fun (i : XSlot → Instr) (y : XCmd) (nonRep : Bool) =>
      ∃ t, exec (i f) s = .next t ∧
        Went { (s.modCurTile fun z => { z with xq := z.xq ++ [y] }) with nextId := s.nextId + 1 } t [] s.issue.nextPc nonRep
    h.poison = false → o.poison = false →
    (d.poison = false →
      let n := d.val.toNat % 2 ^ 22
      let sheet := s.sheetSide x n
      let near : Side := { va := c.val.toNat, len := n, segs := [{ va := c.val.toNat, space := .scratch s.issue.tile, off := c.val.toNat, len := n }] }
      d.val.toNat / 2 ^ 22 % 4 = 0 → d.val.toNat < 2 ^ 25 → 0 < n → n ≤ 0x200000 →
      let fits := (n = 1 ∨ n = 2 ∨ n = 4 ∨ n = 8) ∧ x.toNat % n = 0
      let block := c.poison = false ∧ f.td = 0 ∧ c.val.toNat + n ≤ 0x400000
      (s.smAccess x n true false = [] →
        (d.val.getLsbD 24 = true → f.sc = 6 → fits →
          accepts .smld { cmd .smld 0 with src := sheet, reads := sheet.segs } false) ∧
        (d.val.getLsbD 24 = false → block →
          accepts .smld { cmd .smld 0 with src := sheet, reads := sheet.segs, dst := near, writes := near.segs } false)) ∧
      (∀ e ∈ ([(.smst, 0), (.smstRel, 2)] : List ((XSlot → Instr) × Nat)), s.smAccess x n false true = [] →
        (e.2 = 2 → s.sheetOrd x ≠ 0) →
        (d.val.getLsbD 24 = true → fits → (s.sheetOrd x ≠ 0 → c.poison = false) →
          accepts e.1 { cmd .smst e.2 with dst := sheet, writes := sheet.segs, dataPoison := c.poison } false) ∧
        (d.val.getLsbD 24 = false → block →
          accepts e.1 { cmd .smst e.2 with dst := sheet, writes := sheet.segs, src := near, reads := near.segs } false))) ∧
    (∀ e ∈ ([(.smatomAdd, .add), (.smatomSwap, .swap), (.smatomCas, .cas), (.smatomMinI, .minI), (.smatomMaxI, .maxI),
        (.smatomMinN, .minN), (.smatomMaxN, .maxN)] : List ((XSlot → Instr) × AtomOp)),
      c.poison = false → (e.2 = .cas → d.poison = false) → x.toNat % 8 = 0 → s.smAccess x 8 true true = [] →
      f.ord.toNat % 2 = 0 → (f.ord ≠ 0 → s.sheetOrd x ≠ 0) →
      let sheet := s.sheetSide x 8
      accepts e.1 { cmd (.smatom e.2) f.ord.toNat with dst := sheet, reads := sheet.segs, writes := sheet.segs } true)

/-- 09 R235, R236, R242, R243: far acquires of a sheet. -/
def Obligations.SheetAcquires : Prop :=
  ∀ e ∈ ([(.smldAcq, none), (.smatomAdd, some .add), (.smatomSwap, some .swap), (.smatomCas, some .cas), (.smatomMinI, some .minI),
      (.smatomMaxI, some .maxI), (.smatomMinN, some .minN), (.smatomMaxN, some .maxN)] : List ((XSlot → Instr) × Option AtomOp)),
    ∀ (f : XSlot) (s : State), Opens s →
      let (i, atom) := e
      let h := s.plainOp f.sa
      let o := s.plainOp f.sb
      let c := s.plainOp f.sc
      let d := s.plainOp f.sd
      let x := h.val + o.val
      let n := if atom.isSome then 8 else d.val.toNat % 2 ^ 22
      let sheet := s.sheetSide x n
      let block := atom.isNone && !d.val.getLsbD 24
      let near : Side := { va := c.val.toNat, len := n, segs := [{ va := c.val.toNat, space := .scratch s.issue.tile, off := c.val.toNat, len := n }] }
      let y : XCmd :=
        { head := { id := s.nextId, ctx := s.issue.ctx, pc := s.issue.pc, slot := 6, sync := s.cur.syncReg f.sy.toNat, syNum := f.sy.toNat
                    seed := s.cur.seed, step := s.cur.stepReg, region := s.cur.regionNo, issued := s.now }
          op := match atom with | some p => .smatom p | none => .smld
          ch := f.ch.toNat, td := f.td.toNat, ord := if atom.isSome then f.ord.toNat else 1, far := true
          a := h.val, b := o.val, c := c.val, d := d.val, tenant := s.cur.tenant.toNat
          src := if atom.isSome then {} else sheet, dst := if atom.isSome then sheet else if block then near else {}
          reads := sheet.segs, writes := if atom.isSome then sheet.segs else if block then near.segs else [] }
      h.poison = false → o.poison = false → s.smAccess x n true atom.isSome = [] → s.sheetOrd x ≠ 0 →
      (match atom with
        | some p => c.poison = false ∧ (p = .cas → d.poison = false) ∧ x.toNat % 8 = 0 ∧ f.ord.toNat % 2 = 1
        | none => d.poison = false ∧ d.val.toNat / 2 ^ 22 % 4 = 0 ∧ d.val.toNat < 2 ^ 25 ∧
          (block = false → f.sc = 6 ∧ (n = 1 ∨ n = 2 ∨ n = 4 ∨ n = 8) ∧ x.toNat % n = 0) ∧
          (block = true → 0 < n ∧ n ≤ 0x200000 ∧ c.poison = false ∧ f.td = 0 ∧ c.val.toNat + n ≤ 0x400000)) →
      s.cur.lockLeft = none → s.cur.inFtr = false →
      (s.cur.farAcq = none → s.cur.syncFails (s.cur.syncReg f.sy.toNat) = [] →
        (s.curTile.xq.filter fun z => z.ch == f.ch.toNat).length < 4 → Unhindered s [] [] →
        ∃ t, exec (i f) s = .next t ∧ OnlyContext (s.modCurTile fun z => { z with xq := z.xq ++ [y] }) t ∧
          t.ctx s.issue.tile s.issue.ctx =
            { s.cur with farAcq := some { id := s.nextId, pc := s.cur.pc }, st := .blocked .watermark
                         nonRepeatable := s.cur.nonRepeatable || atom.isSome }) ∧
      (∀ q, s.cur.farAcq = some q → q.back = none → Unhindered s [] [] → ∃ t, exec (i f) s = .next t ∧ Held s t .watermark) ∧
      (∀ q v fl, s.cur.farAcq = some q → q.pc = s.issue.pc →
        let ls : List Landing :=
          if f.td = 0 then [] else [{ Result.flight s.now ⟨1, .scalar f.td.toNat { val := v }, 0⟩ with free := true }]
        Unhindered s ls [] →
        (∀ z, q.back = some (v, false, fl) → s.curTile.findX q.id = some z →
          let gone := s.modCurTile fun w => { w with xq := w.xq.filter fun r => r.head.id != q.id }
          ∃ t, exec (i f) s = .next t ∧
            Went ((gone.completeCmd s.issue.tile z.head 0 z.head.written false).modCur fun k => { k with farAcq := none }) t ls
              s.issue.nextPc atom.isSome) ∧
        (q.back = some (v, true, fl) → Unhindered s [] [] → ∃ t, exec (i f) s = .next t ∧
          (t.ctx s.issue.tile s.issue.ctx).farAcq = none ∧
          (t.ctx s.issue.tile s.issue.ctx).pendingTrap = some
            ({ kind := .precise, cause := 0x11, pc := s.issue.pc, slot := BitVec.ofNat 4 s.issue.slot, addr := x, ret := s.issue.pc },
              s.now)))

/-- 07 R170, R174, R175: acceptance of BURNISH. That weights under a key slot that is not usable (12 R332) trap before G and S are
translated, with the page's address, is the model's choice (log 89). -/
def Obligations.BurnishAccepted : Prop :=
  ∀ (f : XSlot) (s : State), Opens s → Unhindered s [] [] → s.cur.syncFails (s.cur.syncReg f.sy.toNat) = [] →
    (s.curTile.xq.filter fun y => y.ch == f.ch.toNat).length < 4 →
    let a := s.plainOp f.sa
    let b := s.plainOp f.sb
    let c := s.plainOp f.sc
    let d := s.plainOp f.sd
    let cmd := fun (op : XOp) =>
      ({ head := { id := s.nextId, ctx := s.issue.ctx, pc := s.issue.pc, slot := 6, sync := s.cur.syncReg f.sy.toNat, syNum := f.sy.toNat
                   seed := s.cur.seed, step := s.cur.stepReg, region := s.cur.regionNo, issued := s.now }
         op := op, ch := f.ch.toNat, td := f.td.toNat, ord := f.ord.toNat, a := a.val, b := b.val, c := c.val, d := d.val
         tenant := s.cur.tenant.toNat } : XCmd)
    let accepts := fun (i : XSlot → Instr) (x : XCmd) =>
      ∃ t, exec (i f) s = .next t ∧
        Went { (s.modCurTile fun y => { y with xq := y.xq ++ [x] }) with nextId := s.nextId + 1 } t [] s.issue.nextPc true
    let w := d.val.toNat
    a.poison = false → b.poison = false → c.poison = false → d.poison = false → w / 2 ^ 25 % 2 ^ 7 = 0 →
    (w < 2 ^ 61 → ∀ n y, s.burnishLayout a.val = some (n, y) →
      let groups := w / 2 ^ 32 % 2 ^ 24 + 1
      let first := w % 2 ^ 25
      let glen := 64 * (if w / 2 ^ 60 % 2 = 1 then 24 else 4) * groups
      let slen := 384 * groups
      let lay := s.layoutOver s.cur [(b.val, glen, false), (c.val, slen, true)]
      let src := s.findGlobal b.val glen false lay b.val
      let dst := s.findGlobal c.val slen true lay b.val
      let weights := cutSegs y.segs (128 * first) (128 * groups)
      128 * (first + groups) ≤ y.len → b.val.toNat % 64 = 0 → c.val.toNat % 64 = 0 → ∀ i j, s.localHbm b.val glen = some i →
      s.localHbm c.val slen = some j → (i + glen ≤ j ∨ j + slen ≤ i) →
      ((∀ g ∈ weights, s.keyUsable g.key s.cur.tenant.toNat = true) →
        src.before = [] → src.after = [] → dst.before = [] → dst.after = [] → (src.idents ++ dst.idents).eraseDups.length ≤ 64 →
        accepts .burnishUpdate
          { cmd .burnish with
            src := src.side, dst := dst.side, pinned := weights, reads := src.side.segs ++ dst.side.segs ++ weights
            writes := weights ++ dst.side.segs, idents := src.idents ++ dst.idents, layouts := n :: (src.layout ++ dst.layout) }) ∧
      ∀ g, weights.find? (fun g => !s.keyUsable g.key s.cur.tenant.toNat) = some g →
        ∃ t, exec (.burnishUpdate f) s = .next t ∧ Trapped s t 0x17 (BitVec.ofNat 64 g.va)) ∧
    (w / 2 ^ 62 = 1 → w / 2 ^ 60 % 4 = 0 → w / 2 ^ 32 % 2 ^ 24 = 0 → w % 2 ^ 25 = 0 → b.val.toNat % 64 = 0 →
      b.val.toNat + 64 ≤ 0x400000 →
      let near : Side := { va := b.val.toNat, len := 64, segs := [{ va := b.val.toNat, space := .scratch s.issue.tile, off := b.val.toNat, len := 64 }] }
      accepts .burnishRecipeLoad { cmd .recipe with src := near, reads := near.segs })

/-- 10 R266 to R272, 11 R299, 08 R202, R205: the F forms. That a fixed-time region counts both ports of a RELAY, and both of a command that
uses one, as named is the model's choice (log 56); so is that a lock of its own bundle shuts it out (log 86), and how it waits for its
context's accesses on the mesh (log 87). -/
def Obligations.FabricCommands : Prop :=
  ∀ (f : FSlot) (s : State), Opens s →
    let a := s.plainOp f.sa
    let c := s.plainOp f.sb
    let p := f.pt.toNat
    let y := s.cur.syncReg f.sy.toNat
    let issues := fun (i : FSlot → Instr) (op : FOp) (at' n : Nat) (rs : List Result) =>
      let q := match op with | .relay => oppositePort p | _ => p
      let fifo := FMap.getD s.curTile.fifos q []
      let pops := match op with | .send => 0 | _ => n
      let cmd : FCmd :=
        { head := { id := s.nextId, ctx := s.issue.ctx, pc := s.issue.pc, slot := 7, sync := y, syNum := f.sy.toNat
                    seed := s.cur.seed, step := s.cur.stepReg, region := s.cur.regionNo, issued := s.now }
          op := op, port := p, n := n, a := at', beats := fifo.take pops }
      s.hasLink s.issue.tile p = true → s.cur.syncFails y = [] →
      (y.thr ≠ 0 → y.thr.toNat ≤ (s.curTile.sem (s.cur.semAt y.wsem.toNat)).value.toNat) →
      (pops ≠ 0 → FMap.get? s.curTile.overruns q = none ∧ n ≤ fifo.length ∧ ∀ b ∈ fifo.take n, ∀ x ∈ b.poison, x = false) →
      acquireCheck s = [] → reserveChecks s op p at' n = [] →
      (∀ r ∈ bankCycles op p s.now at' n, s.ownLock r.1 = true → s.now + 1 + 2 * s.issue.hdr.blkn.toNat < r.2) →
      Unhindered s (rs.map (Result.flight s.now)) [] →
      (op ≠ .send → (∃ r ∈ s.ownMesh, s.meshOpen r = false) → s.cur.lockLeft = none → s.cur.inFtr = false →
        ∃ t, exec (i f) s = .next t ∧ Held s t .matrixBusy) ∧
      ((op ≠ .send → ∀ r ∈ s.ownMesh, s.meshOpen r = true) →
        ∃ t, exec (i f) s = .next t ∧ ∀ r ∈ s.ownMesh, s.meshOpen r = true → r.far = false → r ∉ t.mesh) ∧
      (s.ownMesh = [] → ∃ t, exec (i f) s = .next t ∧
        Went
          { ((s.modCurTile fun x =>
                { x.takeWait s.cur y with
                  fifos := if pops = 0 then x.fifos else FMap.setD x.fifos q (fifo.drop n) []
                  fq := x.fq ++ [cmd]
                  linkRes := x.linkRes ++ (leaveCycles op p s.now n).map fun k => (p, k)
                  bankRes := x.bankRes ++ bankCycles op p s.now at' n }).modCur fun k =>
              { k with ftrPorts := if s.cur.inFtr then k.ftrPorts ++ [p, q] else k.ftrPorts }) with
            nextId := s.nextId + 1 }
          t (rs.map (Result.flight s.now)) s.issue.nextPc true)
    let n := f.n.toNat + 1
    let inside := fun (limit : Nat) => a.poison = false ∧ a.val.toNat % 64 = 0 ∧ a.val.toNat + 64 * n ≤ limit
    (inside 0x400000 → issues .send .send a.val.toNat n []) ∧
    (inside 0x400000 → issues .recv .recv a.val.toNat n []) ∧
    (inside 0x100000 → c.poison = false → c.val.toNat ≤ 1 → (c.val.toNat = 1 → n % 3 = 0) →
      (∀ r ∈ accRegions a.val.toNat n, s.curTile.regionBusy r = false) →
      issues .recvaddAcc (.addAcc (c.val.toNat == 1)) a.val.toNat n []) ∧
    issues .relay .relay 0 n [] ∧
    (f.n.toNat % 4 = 0 → (∀ i, i < 3 → Named s.cur (f.n.toNat + i)) →
      let reg := fun i => s.cur.veff (f.n.toNat + i)
      let got := beatRegs ((FMap.getD s.curTile.fifos p []).take 12)
      ∃ vs : List VReg, vs.length = 3 ∧
        (∀ i, i < 3 → (vs.getD i []).length = 64) ∧
        (∀ e, e < 32 →
          let old := rdwElem (s.cur.vreg (reg 0)) (s.cur.vreg (reg 1)) (s.cur.vreg (reg 2)) e
          let new := rdwElem (got.getD 0 []) (got.getD 1 []) (got.getD 2 []) e
          (rdwElem (vs.getD 0 []) (vs.getD 1 []) (vs.getD 2 []) e).1 = old.1.add new.1 ∧
            ∀ i, i < 3 → ((vs.getD i []).lane (2 * e)).poison = old.2 ∧ ((vs.getD i []).lane (2 * e + 1)).poison = old.2) ∧
        issues .recvaddReg .addReg 0 12 ((List.range 3).map fun i => ⟨8, .vector (reg i) ((vs.getD i []).map some), 0⟩))

/-- 11 R302, R303: branches and calls. -/
def Obligations.BranchesAndCalls : Prop :=
  ∀ (s : State), Opens s → Unhindered s [] [] →
    let goes := fun (i : Instr) (base : State) (target : Int) =>
      (0 ≤ target → target ≤ 0x1FFFF → ∃ t, exec i s = .next t ∧ Went base t [] target.toNat false) ∧
      ((target < 0 ∨ 0x1FFFF < target) → ∃ t, exec i s = .next t ∧ Trapped s t 0x01 (BitVec.ofInt 64 target))
    let stops := fun (i : Instr) (cause : Nat) (addr : Word) => ∃ t, exec i s = .next t ∧ Trapped s t cause addr
    let here := (s.issue.pc.toNat : Int)
    let pushed := s.modCur fun k => { k with links := s.issue.nextPc :: k.links }
    (∀ f : CJump, goes (.br f) s (here + f.disp.toInt) ∧
      (s.cur.links.length < 16 → goes (.call f) pushed (here + f.disp.toInt)) ∧
      (16 ≤ s.cur.links.length → stops (.call f) 0x21 0)) ∧
    ∀ f : CSlot,
      let p := s.cur.pred f.p.toNat
      let a := s.cOp f f.sa
      let there := ((s.cur.cb.zeroExtend 64 + a.val : Word).toNat : Int)
      (p = true → goes (.brpT f) s (here + f.imm.toInt)) ∧ (p = false → goes (.brpF f) s (here + f.imm.toInt)) ∧
      (p = false → ∃ t, exec (.brpT f) s = .next t ∧ Issued s t []) ∧ (p = true → ∃ t, exec (.brpF f) s = .next t ∧ Issued s t []) ∧
      (a.poison = true → stops (.bri f) 0x10 a.val ∧ stops (.calli f) 0x10 a.val) ∧
      (a.poison = false → goes (.bri f) s there ∧ (s.cur.links.length < 16 → goes (.calli f) pushed there) ∧
        (16 ≤ s.cur.links.length → stops (.calli f) 0x21 0)) ∧
      (∀ r rs, s.cur.links = r :: rs → goes (.ret f) (s.modCur fun k => { k with links := rs }) r) ∧
      (s.cur.links = [] → stops (.ret f) 0x21 0)

/-- 11 R304, R305: hardware loops. -/
def Obligations.HardwareLoops : Prop :=
  ∀ (f : CSlot) (s : State), Opens s → Unhindered s [] [] →
    let l := f.p.toNat
    let y := FMap.getD s.cur.loops l {}
    let a := s.plainOp f.sa
    let back := (s.issue.pc.toNat : Int) + f.imm.toInt
    let named := fun c => (f.sa = 6 ∧ c = y.count) ∨ (f.sa ≠ 6 ∧ a.poison = false ∧ c = a.val.toNat ∧ c ≤ 0xFFFFFFFF)
    let stops := fun (i : CSlot → Instr) (cause : Nat) (addr : Word) => ∃ t, exec (i f) s = .next t ∧ Trapped s t cause addr
    let set := fun (v : LoopLevel) (rotate : BitVec 5) =>
      s.modCur fun k => { k with rbase := k.rbase - rotate, loops := FMap.insert k.loops l v }
    (y.kind = 1 → ∀ c, c ≠ 0 → named c → ∃ t, exec (.loop f) s = .next t ∧
      Went (set { y with n := 0, cnt := BitVec.ofNat 32 c, active := true } 0) t [] s.issue.nextPc false) ∧
    (y.kind = 1 → named 0 → 0 ≤ back → back ≤ 0x1FFFF → ∃ t, exec (.loop f) s = .next t ∧
      Went (set { y with n := 0, cnt := 0 } 0) t [] back.toNat false) ∧
    (y.kind ≠ 1 → stops .loop 0x20 (f.p.zeroExtend 64)) ∧
    (y.kind = 1 → f.sa ≠ 6 → a.poison = true → stops .loop 0x10 a.val) ∧
    (y.kind = 1 → f.sa ≠ 6 → a.poison = false → 0xFFFFFFFF < a.val.toNat → stops .loop 0x20 (f.p.zeroExtend 64)) ∧
    (y.active = true → y.n + 1 < y.cnt → 0 ≤ back → back ≤ 0x1FFFF → ∃ t, exec (.lend f) s = .next t ∧
      Went (set { y with n := y.n + 1, active := true } 1) t [] back.toNat false) ∧
    (y.active = true → ¬(y.n + 1 < y.cnt) → ∃ t, exec (.lend f) s = .next t ∧
      Went (set { y with n := y.n + 1, active := false } 1) t [] s.issue.nextPc false) ∧
    (y.active = false → stops .lend 0x20 (f.p.zeroExtend 64)) ∧
    ((back < 0 ∨ 0x1FFFF < back) →
      (y.kind = 1 → named 0 → stops .loop 0x01 (BitVec.ofInt 64 back)) ∧
      (y.active = true → y.n + 1 < y.cnt → stops .lend 0x01 (BitVec.ofInt 64 back)))

/-- 11 R297, R306, R307; 08 R211: the semaphore forms. -/
def Obligations.Semaphores : Prop :=
  ∀ (f : CSlot) (s : State), Opens s → Unhindered s [] [] →
    let a := s.plainOp f.sa
    let b := s.plainOp f.sb
    let i := f.imm.toNat % 256 + a.val.toNat
    let n := f.imm.toNat / 256 + b.val.toNat
    let k := s.cur.sembase.toNat + i
    let m := FMap.getD s.curTile.sems k {}
    let leaves := fun (v : Sem) => s.modCurTile fun x => { x with sems := FMap.setD x.sems k v {} }
    let stops := fun (cause : Nat) (addr : Word) => ∀ j ∈ ([.semw, .sems] : List (CSlot → Instr)), ∃ t, exec (j f) s = .next t ∧ Trapped s t cause addr
    let inRange := a.poison = false ∧ b.poison = false ∧ i < s.cur.semcnt.toNat ∧ n ≤ 0xFFFF
    (a.poison = true → stops 0x10 a.val) ∧ (a.poison = false → b.poison = true → stops 0x10 b.val) ∧
    (a.poison = false → b.poison = false → s.cur.semcnt.toNat ≤ i → stops 0x1E (BitVec.ofNat 64 i)) ∧
    (a.poison = false → b.poison = false → i < s.cur.semcnt.toNat → 0xFFFF < n → stops 0x1E (BitVec.ofNat 64 n)) ∧
    (inRange → m.err = false → n ≤ m.value.toNat → ∃ t, exec (.semw f) s = .next t ∧
      Went (leaves { m with value := m.value - BitVec.ofNat 16 n }) t [] s.issue.nextPc true) ∧
    (inRange → m.err = false → m.value.toNat < n → s.cur.lockLeft = none → s.cur.inFtr = false →
      ∃ t, exec (.semw f) s = .next t ∧ Held s t .semaphore) ∧
    (inRange → m.err = true → ∃ t, exec (.semw f) s = .next t ∧ Trapped (leaves { m with err := false }) t 0x1F (BitVec.ofNat 64 i)) ∧
    (inRange → s.released s.issue.tile s.issue.ctx = true → ∃ t, exec (.sems f) s = .next t ∧
      Went (leaves (if 0xFFFF < m.value.toNat + n then { value := 0xFFFF, err := true }
        else { m with value := BitVec.ofNat 16 (m.value.toNat + n) })) t [] s.issue.nextPc true)

/-- 11 R310 to R317: the phaser forms. TRAPADDR 0 on an empty slot is the model's choice (log 79). -/
def Obligations.Phasers : Prop :=
  (∀ (x : Phaser) (ticks : List Nat), x.got = true →
    x.settle ticks = if x.narr = x.nsig ∧ x.pend = 0 then
      { x with ph := x.ph + 1, narr := 0, pend := x.target, nsig := x.nsigNext, got := false, doneAt := FMap.insert x.doneAt x.ph ticks } else x) ∧
  ∀ (f : CSlot) (s : State), Opens s → Unhindered s [] [] →
    let a := s.plainOp f.sa
    let b := s.plainOp f.sb
    let n := f.p.toNat % 8
    let slot := FMap.get? s.cur.phslots n
    let stops := fun (i : CSlot → Instr) (cause : Nat) (addr : Word) => ∃ t, exec (i f) s = .next t ∧ Trapped s t cause addr
    let fills := fun (e : PhaserSlot) => s.modCur fun k => { k with phslots := FMap.insert k.phslots n e }
    (∀ e ∈ ([(.phregSig, .sig), (.phregWait, .wait), (.phregSw, .sw)] : List ((CSlot → Instr) × Role)),
      (a.poison = false → s.phaserOf a.val = none → stops e.1 0x22 a.val) ∧
      (∀ p, a.poison = false → s.phaserOf a.val = some p →
        let x := (s.phaser p).getD { launch := s.cur.launch, target := b.val.toNat, pend := b.val.toNat }
        let later := x.got = true ∨ x.narr ≠ 0
        let m := f.imm.toNat % 256
        let bound := f.imm.getLsbD 8
        (slot ≠ none → stops e.1 0x22 a.val) ∧
        (slot = none → x.launch = s.cur.launch → (bound = true → m < s.cur.semcnt.toNat) → (s.phaser p = none → b.poison = false) →
          let new : PhaserSlot :=
            { phaser := p, role := e.2, arrival := if later then x.ph + 1 else x.ph, waitPh := x.ph, binding := if bound then some m else none }
          let y := if e.2 = .wait then x else { x with nsigNext := x.nsigNext + 1, nsig := if later then x.nsig else x.nsig + 1 }
          ∃ t, exec (e.1 f) s = .next t ∧
            Went ((s.setPhaser p y).modCur fun k => { k with phslots := FMap.insert k.phslots n new }) t [] s.issue.nextPc true))) ∧
    (slot = none → stops .pharr 0x22 0 ∧ stops .phwait 0x22 0 ∧ stops .phdrop 0x22 0) ∧
    (∀ e x, slot = some e → s.phaser e.phaser = some x →
      (e.role = .wait → stops .pharr 0x22 (s.cur.phaserId e.phaser)) ∧
      (e.role ≠ .wait → (s.cOp f f.sb).poison = true → stops .pharr 0x10 (s.cOp f f.sb).val) ∧
      (e.role ≠ .wait → (s.cOp f f.sb).poison = false → x.ph < e.arrival → s.cur.lockLeft = none → s.cur.inFtr = false →
        ∃ t, exec (.pharr f) s = .next t ∧ Held s t .phaser) ∧
      (e.role ≠ .wait → let b := s.cOp f f.sb
        b.poison = false → e.arrival ≤ x.ph → s.released s.issue.tile s.issue.ctx = true →
        let y := { x with narr := x.narr + 1, got := true }
        let base := fills { e with arrival := x.ph + 1 }
        ∃ t, exec (.pharr f) s = .next t ∧
          Went (if b.val = 0 then base.setPhaser e.phaser (y.settle s.ticks) else (base.setPhaser e.phaser y).declare e.phaser b.val.toNat) t []
            s.issue.nextPc true) ∧
      ((e.role = .sig ∨ (e.role = .sw ∧ e.arrival ≤ e.waitPh)) → stops .phwait 0x22 (s.cur.phaserId e.phaser)) ∧
      (e.role ≠ .sig → (e.role = .sw → e.waitPh < e.arrival) →
        (e.overrun = true → ∃ t, exec (.phwait f) s = .next t ∧ Trapped
          (s.modCur fun k => { k with phslots := k.phslots.map fun w => if w.1 = n then (w.1, { w.2 with overrun := false }) else w })
          t 0x23 (s.cur.phaserId e.phaser)) ∧
        (e.overrun = false → e.waitPh < x.ph →
          ((FMap.get? x.doneAt e.waitPh).getD []).getD (dieOf s.issue.tile) 0 + (if e.phaser.hub then 40 else 4) ≤ s.now →
          ∃ t, exec (.phwait f) s = .next t ∧ Went (fills { e with waitPh := e.waitPh + 1 }) t [] s.issue.nextPc false) ∧
        (e.overrun = false → x.ph ≤ e.waitPh → s.cur.lockLeft = none → s.cur.inFtr = false →
          ∃ t, exec (.phwait f) s = .next t ∧ Held s t .phaser)) ∧
      let due := e.role ≠ .wait ∧ e.arrival ≤ x.ph
      ((due → s.released s.issue.tile s.issue.ctx = true) →
        let gone := s.modCur fun k => { k with phslots := FMap.erase k.phslots n }
        let z := if due then ({ x with narr := x.narr + 1, got := true } : Phaser).settle s.ticks else x
        let last := if due then x.ph + 1 else e.arrival
        let left := if e.role = .wait then z
          else { z with nsigNext := z.nsigNext - 1, nsig := if last ≤ z.ph then z.nsig - 1 else z.nsig }
        ∃ t, exec (.phdrop f) s = .next t ∧
          Went (if gone.hasMember e.phaser then gone.setPhaser e.phaser left else { gone with phasers := FMap.erase gone.phasers e.phaser.key }) t []
            s.issue.nextPc true) ∧
      (due → s.released s.issue.tile s.issue.ctx = false → s.cur.lockLeft = none → s.cur.inFtr = false →
        ∃ t, exec (.phdrop f) s = .next t ∧ Held s t .watermark))

/-- 02 R32; 08 R195, R210; 10 R254, R258 to R260; 11 R308, R309. -/
def Obligations.WaitsAndRegions : Prop :=
  ∀ (f : CSlot) (s : State), Opens s → Unhindered s [] [] →
    let k := s.cur
    let went := fun (i : CSlot → Instr) (base : State) => ∃ t, exec (i f) s = .next t ∧ Went base t [] s.issue.nextPc false
    let stops := fun (i : CSlot → Instr) (cause : Nat) (addr : Word) => ∃ t, exec (i f) s = .next t ∧ Trapped s t cause addr
    let die := s.die (dieOf s.issue.tile)
    let a := s.plainOp f.sa
    let b := s.cOp f f.sb
    let mark := a.val + b.val
    let late := (die.keyTime - (mark + BitVec.ofNat 64 (die.stretchAt mark)) : Word).toInt
    let h := s.issue.hdr
    let busy := (∃ r ∈ s.mesh, r.tile = s.issue.tile ∧ r.ctx = s.issue.ctx) ∨ (∃ m ∈ s.curTile.mq, m.head.ctx = s.issue.ctx) ∨
      ∃ x ∈ s.curTile.xq, x.head.ctx = s.issue.ctx
    (¬busy → went .fence s) ∧
    (busy → k.lockLeft = none → k.inFtr = false → ∃ t, exec (.fence f) s = .next t ∧ Held s t .watermark) ∧
    (k.inFtr = false → k.lockLeft = none → went .yield (s.modCurTile fun x => { x with yielded := true, tookAt := s.now })) ∧
    ((k.inFtr = true ∨ k.lockLeft ≠ none) → went .yield s) ∧
    (k.inFtr = false → went .halt (s.modCur fun k => { k with st := .ending })) ∧ (k.inFtr = true → stops .halt 0x05 0) ∧
    (a.poison = true → stops .align 0x10 a.val) ∧ (a.poison = false → b.poison = true → stops .align 0x10 b.val) ∧
    (a.poison = false → b.poison = false → s.isRegistered (dieOf s.issue.tile) = true →
      (0 ≤ late → late ≤ k.latemax.toNat → went .align s) ∧
      (k.latemax.toNat < late → stops .align 0x13 (BitVec.ofNat 64 (9 * 2 ^ 56 + late.toNat % 2 ^ 48))) ∧
      (late < 0 → k.lockLeft = none → ∃ t, exec (.align f) s = .next t ∧ t.ctx s.issue.tile s.issue.ctx = { k with st := .paused }) ∧
      (late < 0 → k.lockLeft ≠ none → stops .align 0x05 0)) ∧
    (k.inFtr = false → k.lockLeft = none → k.absent = [] → die.clock = 0 → die.clockTo = none →
      went .ftrbeg (s.modCur fun k => { k with inFtr := true, ftrTimer := 0, ftrPorts := [] })) ∧
    ((k.inFtr = true ∨ k.lockLeft ≠ none) → stops .ftrbeg 0x05 0) ∧
    (k.inFtr = true → k.lockLeft = none → (∀ p ∈ k.ftrPorts ++ s.issue.fabPorts, FMap.get? s.curTile.overruns p = none) →
      went .ftrend (s.modCur fun k => { k with inFtr := false, ftrPorts := [] })) ∧
    ((k.inFtr = false ∨ k.lockLeft ≠ none) → stops .ftrend 0x05 0) ∧
    (h.blk = true → k.lockLeft = none → s.curTile.reservedIn (s.now + 1) (s.now + 1 + 2 * h.blkn.toNat) [h.blka.toNat, h.blkb.toNat] = false →
      ∃ t, exec .bankLock s = .next t ∧ Went s t [] s.issue.nextPc false ∧ (t.ctx s.issue.tile s.issue.ctx).lockLeft = some h.blkn.toNat ∧
        (t.tile s.issue.tile).lock = some { ctx := s.issue.ctx, bankA := h.blka.toNat, bankB := h.blkb.toNat })

/-- 13 R348 to R351: the recovery forms. That PARK ends a region and a lock (log 55), that UNPARK's target is Ready in the same step
(R351: within 256 cycles; log 54), and what END discards (log 70) are the model's choices. -/
def Obligations.TrapForms : Prop :=
  ∀ (f : CSlot) (s : State), Opens s → Unhindered s [] [] →
    let k := s.cur
    let sup := s.issue.lvl = 1
    let closed := fun (u : State) => u.modCur fun k => { k with trapcause := 0, lvl := k.sup, engineFlag := false, heldCmd := 0 }
    let stops := fun (i : CSlot → Instr) (cause : Nat) (addr : Word) => ∃ t, exec (i f) s = .next t ∧ Trapped s t cause addr
    stops .trap 0x0A (BitVec.ofNat 64 (s.issue.nextPc * 2 ^ 32 + f.imm.toNat)) ∧
    (sup → k.trapcause = 0 → stops .eret 0x05 0 ∧ stops .eres 0x05 0) ∧
    (sup → k.trapcause ≠ 0 → k.engineFlag = false →
      (∃ t, exec (.eret f) s = .next t ∧ Went (closed s) t [] k.trappc.toNat false) ∧ stops .eres 0x05 0) ∧
    (sup → k.trapcause ≠ 0 → k.engineFlag = true →
      (∃ t, exec (.eret f) s = .next t ∧ Went (closed (s.discardCmd s.issue.tile k.heldCmd)) t [] k.retPoint.toNat false) ∧
      ∃ t, exec (.eres f) s = .next t ∧ Went (closed (s.resumeCmd s.issue.tile k.heldCmd)) t [] k.retPoint.toNat false) ∧
    (sup → ∃ t, exec (.park f) s = .next t ∧
      Went ((s.park s.issue.tile s.issue.ctx 2 0 (parkBytes s k f.imm.toNat)).modCur fun k => { k with inFtr := false, ftrPorts := [] }) t []
        s.issue.nextPc false ∧
      (t.ctx s.issue.tile s.issue.ctx).st = .parked ∧ (t.ctx s.issue.tile s.issue.ctx).parkedKind = 2) ∧
    ∀ e ∈ ([(.unparkReturn, 0), (.unparkResume, 1), (.unparkRedirect, 2), (.unparkEnd, 3)] : List ((CSlot → Instr) × Nat)),
      let a := s.plainOp f.sa
      let b := s.cOp f f.sb
      let tgt := b.val.toNat / 2 ^ 32 % 2 ^ 17
      sup → ((a.poison = true ∨ 2 ^ 34 ≤ a.val.toNat) → stops e.1 0x06 a.val) ∧
        (a.poison = false → a.val.toNat < 2 ^ 34 → (b.poison = true ∨ b.val.toNat / 4 % 2 ^ 30 ≠ 0 ∨ 2 ^ 49 ≤ b.val.toNat) → stops e.1 0x06 b.val) ∧
        (a.poison = false → a.val.toNat < 2 ^ 34 → b.poison = false → b.val.toNat / 4 % 2 ^ 30 = 0 → b.val.toNat < 2 ^ 49 →
          s.released s.issue.tile s.issue.ctx = true →
          (∃ t, exec (e.1 f) s = .next t ∧ Went (s.unpark a.val.toNat e.2 tgt) t [] s.issue.nextPc false) ∧
          (s.findTicket a.val.toNat = none → (∀ v ∈ s.saved, ¬(v.parked = true ∧ v.ctx.ticket = some a.val.toNat)) →
            s.unpark a.val.toNat e.2 tgt = s) ∧
          ∀ t' c', s.findTicket a.val.toNat = some (t', c') → (s.ctx t' c').parkedKind = 2 →
            s.unpark a.val.toNat e.2 tgt =
              if e.2 = 3 then (s.endCtx t' c').sigError (s.ctx t' c').launch
              else s.modCtx t' c' fun k =>
                { k with st := .ready, ticket := none, parkHeld := 0, pc := if e.2 = 2 then BitVec.ofNat 17 tgt else k.pc
                         pcOver := if e.2 = 2 then false else k.pcOver })

/-- 02 R52: the privileged forms at the user level. -/
def Obligations.PrivilegeTraps : Prop :=
  ∀ i ∈ ([.eret, .eres, .park, .unparkReturn, .unparkResume, .unparkRedirect, .unparkEnd] : List (CSlot → Instr)),
    ∀ (f : CSlot) (s : State), s.issue.lvl = 0 →
      (Opens s → Unhindered s [] [] → ∃ t, exec (i f) s = .next t ∧ Trapped s t 0x03 0) ∧
      (s.issue.mode = .judge → ∃ t fs, exec (i f) s = .next t ∧ t.issue.fails = s.issue.fails ++ fs ∧
        fs.map (fun x => (x.phase, x.slot, x.kind)) = [(3, s.issue.slot, .trap .precise 0x03 0 0)])

/-- 05 R115, R118, R119, R130, R131; 03 R83; 06 R138, R141; 02 R38; 09 R234, R235; 12 R325, R326; 13 R345. -/
def Obligations.ResultLandings : Prop :=
  (∀ (k : Ctx) (n : Nat) (v : SReg) (m : Nat), ((Dest.scalar n v).land k).sreg m = if m = n ∧ n ≠ 0 then v else k.sreg m) ∧
  (∀ (k : Ctx) (n : Nat) (v : Bool) (m : Nat), n < 16 → m < 16 → ((Dest.pred n v).land k).pred m = if m = n ∧ n ≠ 0 then v else k.pred m) ∧
  (∀ (k : Ctx) (n : Nat) (ls : List (Option LaneVal)) (m l : Nat), l < 64 →
    (((Dest.vector n ls).land k).vreg m).lane l = if m = n then (ls.getD l none).getD ((k.vreg n).lane l) else (k.vreg m).lane l) ∧
  (∀ (k : Ctx) (n : Nat) (w : Word) (v : MaskReg) (m l : Nat), l < 64 →
    (((Dest.mask n w v).land k).mreg m).bits.getLsbD l = (if m = n ∧ w.getLsbD l = true then v.bits.getLsbD l else (k.mreg m).bits.getLsbD l) ∧
    (((Dest.mask n w v).land k).mreg m).poison.getLsbD l =
      (if m = n ∧ w.getLsbD l = true then v.poison.getLsbD l else (k.mreg m).poison.getLsbD l)) ∧
  (∀ (s : State) (t : Nat),
    let now := s.tickOf t
    let isCsr := fun (l : Landing) => match l.dest with | .csr _ _ => true | _ => false
    ∃ rest, s.tileJobs t = ((s.tile t).ctxs.flatMap fun e => (e.2.inflight.filter fun l => isCsr l && decide (l.due ≤ now)).map fun l =>
        ({ instr := .resultLanding, focus := { die := dieOf t, tile := t, ctx := e.1, id := l.id } } : Job)) ++ rest ∧
      ∀ j ∈ rest, j.instr = .resultLanding →
        ∃ e ∈ (s.tile t).ctxs, ∃ l ∈ e.2.inflight, j.focus.ctx = e.1 ∧ j.focus.id = l.id ∧ isCsr l = false ∧ l.due ≤ now) ∧
  ∀ s : State,
    let t := s.focus.tile
    let c := s.focus.ctx
    let k := s.ctx t c
    let now := s.tickOf t
    let landed := fun (l : Landing) (k : Ctx) =>
      ({ (l.dest.land k) with
         inflight := k.inflight.filter fun x => x.id != l.id
         vflags := k.vflags ||| l.flags
         pendingTrap := k.pendingTrap.map fun p => (p.1, now) } : Ctx)
    (∀ l, (k.inflight.find? fun x => x.id == s.focus.id) = some l → (∀ n v, l.dest ≠ .csr n v) → l.due ≤ now →
      (l.waits = false → l.free = false → exec .resultLanding s = .next (s.modCtx t c (landed l))) ∧
      (l.free = true → k.portFree now l.dest = true →
        exec .lateResultLanding s = .next (s.modCtx t c fun k => (landed l k).usePort now l.dest))) ∧
    (∀ l n v, (k.inflight.find? fun x => x.id == s.focus.id) = some l → l.dest = .csr n v → l.due ≤ now → l.waits = false → l.free = false →
      (n = 0x040 → exec .resultLanding s = .next ((s.modTile t fun x => { x with quantum := v.truncate 16 }).modCtx t c (landed l))) ∧
      ∀ put : Ctx → Ctx, (n, put) ∈ ([
          (0x000, fun k => { k with sstep := v.getLsbD 8 }),
          (0x002, fun k => { k with rbase := v.truncate 5 }),
          (0x010, fun k => { k with fmtsel := v.truncate 4 }),
          (0x011, fun k => { k with fmtloop := v.truncate 3 }),
          (0x020, fun k => { k with seed := v }),
          (0x021, fun k => { k with stepReg := v }),
          (0x032, fun k => { k with latemax := v.truncate 32 }),
          (0x034, fun k => { k with ftrmax := v.truncate 32 }),
          (0x035, fun k => { k with regionmax := v.truncate 32 }),
          (0x060, fun k => { k with trapcause := v.truncate 8 }),
          (0x061, fun k => { k with trappc := v.truncate 17 }),
          (0x062, fun k => { k with trapslot := v.truncate 4 }),
          (0x063, fun k => { k with estep := v.truncate 16 }),
          (0x064, fun k => { k with trapaddr := v }),
          (0x065, fun k => { k with tvec := v.truncate 17 }),
          (0x0B0, fun k => { k with vflags := v.truncate 6 })] : List (Nat × (Ctx → Ctx))) →
        exec .resultLanding s = .next (s.modCtx t c fun k => landed l (put k))) ∧
    (∀ r rs, k.absent = r :: rs → k.fillAt ≤ now →
      exec .lazyRegisterFill s = .next (s.modCtx t c fun k => { k with absent := rs, fillAt := now + 4 })) ∧
    (∀ r n q, (s.mesh.find? fun r => r.id == s.focus.id && r.far) = some r → r.backAt = some n → n ≤ now → k.farAcq = some q →
      q.id = s.focus.id → exec .farAcquireReply s = .next (({ s with mesh := s.mesh.filter fun q => q.id != s.focus.id } : State).modCtx t c
        fun k => { k with farAcq := some { q with back := some r.got } })) ∧
    (∀ x q, (s.mesh.find? fun r => r.id == s.focus.id && r.far) = none → (s.tile t).findX s.focus.id = some x → x.far = true →
      k.farAcq = some q → q.id = s.focus.id →
      let brings := fun (v : Word) (p : Bool) =>
        exec .farAcquireReply s = .next (s.modCtx t c fun k => { k with farAcq := some { q with back := some (v, p, 0) } })
      let block := x.moves
      (block = false → x.stopped = true → ∀ v, x.value = some v → brings v.val (v.poison || x.status != 0)) ∧
      (block = true → x.moved = true → brings 0 (x.status != 0)) ∧
      (block = true → x.moved = false → x.src.len ≤ x.srcAt → bytesPoison x.buf = true → brings 0 true) ∧
      (block = true → x.moved = false → (x.srcAt < x.src.len ∨ bytesPoison x.buf = false) → exec .farAcquireReply s = .next s)) ∧
    ∀ space off, s.focus.args = [space, off] → (∃ w ∈ k.walks, w.space = space ∧ w.off = off ∧ w.res = none) →
      let tenant := k.tenant.toNat
      let r := s.walk tenant space off
      let seeks := fun (w : WalkReq) => w.res = none ∧ w.space = space ∧ w.off / 4096 = off / 4096
      let walks := fun (u d : Nat) => if dieOf u = dieOf t ∧ (s.ctx u d).tenant.toNat = tenant
        then (s.ctx u d).walks.map fun w => if seeks w then { w with res := some r } else w else (s.ctx u d).walks
      ∃ v, exec .translationWalkComplete s = .next v ∧ (∀ u d, (v.ctx u d).walks = walks u d) ∧
        (∀ e, r = .leaf e → e ∈ (v.die (dieOf t)).tlb ∧ ∀ u d, dieOf u = dieOf t → (s.ctx u d).tenant.toNat = tenant →
          (∃ w ∈ (s.ctx u d).walks, seeks w) → e ∈ (v.tile u).tlb) ∧
        ((∀ e ∈ s.tiles, dieOf e.1 = dieOf t → ∀ x ∈ e.2.xq, s.layregSeeks e.1 tenant space off x = false) →
          v = { s with tiles := v.tiles, dies := v.dies } ∧ (∀ d, v.die d = { s.die d with tlb := (v.die d).tlb }) ∧
          ∀ u, v.tile u = { (s.hbmUsed 0).tile u with tlb := (v.tile u).tlb, ctxs := (v.tile u).ctxs } ∧
            ∀ d, v.ctx u d = { s.ctx u d with walks := walks u d })

/-- 01 R18, R19; 04 R100, R101, R110; 07 R177, R178; 09 R215, R216; 10 R265, R267, R273; 11 R297, R299, R314; 13 R346; 17 R395. That a BURNISH declares
512 bytes for each group is the model's reading (log 50). -/
def Obligations.EngineCommands : Prop :=
  (∀ (s : State) (t : Nat) (h : CmdHead) (fl : Flags) (n : Nat) (bad : Bool),
    (h.cut = true → s.completeCmd t h fl n bad = s) ∧
    (h.cut = false →
      let inert := h.sync.thr = 0 ∧ h.sync.inc = 0
      let u := if fl = 0 then s else s.modCtx t h.ctx fun k => { k with vflags := k.vflags ||| fl }
      let d := if inert then u else ((u.ctx t h.ctx).phslots.map (·.2)).foldl
        (fun v e => if e.binding = some h.sync.ssem.toNat then v.declare e.phaser n else v) u
      s.completeCmd t h fl n bad = if inert then d.modTile t id else d.modTile t fun x =>
        let i := (x.ctx h.ctx).sembase.toNat + h.sync.ssem.toNat
        let m := x.sem i
        let v := m.value.toNat + h.sync.inc.toNat
        x.setSem i { value := if 0xFFFF < v then 0xFFFF else BitVec.ofNat 16 v, err := m.err || bad || decide (0xFFFF < v) })) ∧
  (∀ (s : State) (p : PhaserRef) (n : Nat) (x : Phaser),
    let key := if p.hub then 4096 + p.num else 1024 * p.die + p.num
    FMap.get? s.phasers key = some x →
      s.declare p 0 = s ∧
      (0 < n → n ≤ x.pend →
        let y := { x with got := true, pend := x.pend - n }
        let z := if x.narr = x.nsig ∧ n = x.pend then y.complete ((List.range 4).map fun d => (s.die d).tick) else y
        s.declare p n = { s with phasers := FMap.insert s.phasers key z }) ∧
      (x.pend < n → ∃ y, FMap.get? (s.declare p n).phasers key = some y ∧ y.ph = x.ph + 1 ∧ y.narr = 0 ∧ y.pend = x.target ∧ y.nsig = x.nsigNext ∧
        ∀ t c i e, FMap.get? (s.ctx t c).phslots i = some e → FMap.get? ((s.declare p n).ctx t c).phslots i =
          some (if e.phaser = p then { e with overrun := true } else e))) ∧
  ∀ s : State,
    let t := s.focus.tile
    let c := s.focus.ctx
    let id := s.focus.id
    let k := s.ctx t c
    let x := s.tile t
    let now := s.tickOf t
    let faults := fun (u : State) (h : CmdHead) (cause : BitVec 8) (reason : Nat) =>
      (u.ctx t h.ctx).pendingFaults = (s.ctx t h.ctx).pendingFaults ++
        [{ kind := .engine, cause := cause, pc := h.pc, slot := BitVec.ofNat 4 h.slot, estep := 1, addr := BitVec.ofNat 64 reason
           level := 0, cmd := h.id }]
    (∀ m, x.findM id = some m → exec .engineStep s = .next (s.mStep t m)) ∧
    (∀ y, x.findM id = none → x.findX id = some y → exec .engineStep s = .next (s.xStep t y)) ∧
    (∀ f, x.findM id = none → x.findX id = none → (x.fq.find? fun f => f.head.id == id) = some f → exec .engineStep s = .next (s.fStep t f)) ∧
    (x.findM id = none → x.findX id = none → (x.fq.find? fun f => f.head.id == id) = none → exec .engineStep s = .next s) ∧
    (∀ m, x.findM id = some m →
      (m.head.clear = true → s.mayBeginM t m = true →
        let image := x.entryImage m
        (x.beginFault m image = none → ∃ u m' j, exec .matrixCommandBegin s = .next u ∧ (u.tile t).findM id = some m' ∧
          (u.tile t).mBeganAt = some now ∧ u.agenda = j :: s.agenda ∧ j.focus.tile = t ∧ j.focus.id = id ∧
          j.instr = (if m'.doneAt = 0 then .matrixCommandCompletion else .engineStep) ∧
          m' = { m with
            head := { m.head with st := .running, waited := true, began := now, delay := 0, steps := 1, since := none }
            image := image, rows := 0, cleared := 0, puts := 0, pipe := [], loaded := false, carry := (0, []) }) ∧
        (∀ r, x.beginFault m image = some r → ∃ u m', exec .matrixCommandBegin s = .next u ∧ (u.tile t).findM id = some m' ∧
          m'.head = { m.head with st := .held, waited := true } ∧ faults u m.head 0x28 r)) ∧
      (m.head.st = .running → m.doneAt ≤ m.off now → (m.loadsEntry = true → m.loaded = true) →
        (m.loadsEntry = false → m.rows = m.rowGoal ∧ m.pipe = []) →
        exec .matrixCommandCompletion s = .next (((s.lastStep t m).modTile t fun x => { x with mq := x.mq.filter fun a => a.head.id != m.head.id }).completeCmd t
          m.head m.head.flags m.head.written false))) ∧
    (∀ y, x.findX id = some y →
      (y.head.clear = true → s.mayBeginX t y now = true →
        let head := { y.head with st := .running, waited := true, began := now, steps := 1 }
        let y' := { y with head := head }
        let fresh := { y with head := { head with delay := 0, since := none }, image := [], buf := [], groups := 0,
                               tail := [], panel := [], ahead := [], alone := true }
        let sets := fun (z : XCmd) => s.modTile t fun w => w.setX z
        (y.burnishes = false →
          (y.op ≠ .layreg → exec .copyCommandBegin s = .next (sets y')) ∧
          (y.op = .layreg → exec .copyCommandBegin s = .next ((sets y').layregFirst t y'))) ∧
        (y.burnishes = true → s.burnishBlocked t y = false →
          (y.op = .recipe → ∃ u j, exec .burnishBegin s = .next u ∧ u = { sets fresh with agenda := j :: s.agenda } ∧
            j.instr = .engineStep ∧ j.focus.tile = t ∧ j.focus.id = id) ∧
          (y.op = .burnish → ∀ rcp, rcp = y.d.toNat / 2 ^ 56 % 16 →
            let lay := ((s.ctx t y.head.ctx).layoutOf y.a).isSome
            (∀ e, lay = true → FMap.get? (s.die (dieOf t)).recipes rcp = some e → e.tenant = y.tenant →
              exec .burnishBegin s = .next (sets { fresh with image := e.image })) ∧
            ∀ reason, (lay = false ∧ reason = 2 ∨
                lay = true ∧ reason = 1 ∧ ∀ e, FMap.get? (s.die (dieOf t)).recipes rcp = some e → e.tenant ≠ y.tenant) →
              ∃ u z, exec .burnishBegin s = .next u ∧ (u.tile t).findX id = some z ∧ z.head.st = .held ∧ faults u y.head 0x29 reason))) ∧
      (y.finished now = true →
        let ok := y.status = 0
        let last : ChannelRecord := { status := BitVec.ofNat 8 y.status, prefLen := if y.moves then y.head.steps - 1 else 0 }
        let record := fun (u : State) => if ok then u else u.modTile t fun z => { z with channels := FMap.insert z.channels y.ch last }
        let unpins := fun (u : State) => if y.op = .laydrop then u.modDie (dieOf t) fun d => { d with pinsUsed := d.pinsUsed - y.pinCount } else u
        let gone := fun (u : State) => ((unpins (record u)).modTile t fun z => { z with xq := z.xq.filter fun a => a.head.id != y.head.id }).completeCmd t
          y.head 0 y.head.written (decide ¬ok)
        ((y.td = 0 ∨ y.value = none) → exec .copyCommandCompletion s = .next (gone s)) ∧
        (∀ w, y.td ≠ 0 → y.value = some w →
          let v : SReg := { val := w.val, poison := w.poison || decide ¬ok }
          (s.ctx t y.head.ctx).portFree now (.scalar y.td v) = true →
          exec .copyCommandCompletion s = .next (gone (s.modCtx t y.head.ctx fun k => (k.setSreg y.td v).usePort now (.scalar y.td v))))) ∧
      (y.burnished now = true →
        let recipe : Recipe := { tenant := y.tenant, image := y.image }
        let installed := s.modDie (dieOf t) fun z => { z with recipes := FMap.insert z.recipes (y.d.toNat / 2 ^ 56 % 16) recipe }
        let put := if y.op = .recipe then installed else s
        exec .burnishCompletion s = .next ((put.modTile t fun z => { z with xq := z.xq.filter fun a => a.head.id != y.head.id }).completeCmd t y.head
          (y.head.flags &&& (flNV ||| flSAT ||| flOF ||| flUF ||| flNX))
          (if y.op = .recipe then 0 else 512 * (y.d.toNat / 2 ^ 32 % 2 ^ 24 + 1)) false))) ∧
    (∀ f, (x.fq.find? fun f => f.head.id == id) = some f → f.over now = true →
      exec .fabricCommandCompletion s = .next ((s.modTile t fun x => { x with fq := x.fq.filter fun a => a.head.id != f.head.id }).completeCmd t f.head
        f.head.flags f.head.written false)) ∧
    ((k.st = .ready ∨ k.st = .paused ∨ ∃ w, k.st = .blocked w) → k.trapcause = 0 → k.farAcq = none → k.preempt = none → ∀ r,
      k.pendingFaults = [r] → ∃ u, exec .engineFaultTaken s = .next u ∧ (u.ctx t c).st = .trapping ∧ (u.ctx t c).pendingFaults = [] ∧
        (u.ctx t c).pendingTrap = some ({ r with ret := k.pc }, now)) ∧
    (let put := fun (u : State) (tile port : Nat) (b : Beat) => u.modTile tile fun y =>
       let q := FMap.getD y.fifos port []
       if 64 ≤ q.length then { y with overruns := FMap.setD y.overruns port (FMap.getD y.overruns port 0 + 1) 0 }
       else { y with fifos := FMap.insert y.fifos port (q ++ [b]) }
     (∀ g, s.focus.args = [] → (s.air.find? fun f => f.id == id) = some g → g.due ≤ (s.die g.die).tick → FMap.get? s.scrubs g.tile = none →
       (s.die (dieOf g.tile)).fenced = false →
       exec .beatArrival s = .next (put { s with air := s.air.filter fun f => f.id != id } g.tile g.port g.beat)) ∧
     ∀ port bytes poison code, s.focus.args = port :: (bytes ++ poison ++ [code]) → bytes.length = 64 → poison.length = 64 →
       4 ≤ port → port < 10 → t < 192 → FMap.get? s.scrubs t = none → (s.die (dieOf t)).fenced = false →
       let b : Beat := { bytes := bytes.map (BitVec.ofNat 8), poison := poison.map fun p => decide (code = 1 ∨ p ≠ 0) }
       exec .beatArrival s = .next (put (if code = 0 then s else s.countError (dieOf t) 9 (code == 1) t) t port b))

/-- 04 R87, R88, R91, R101, R105 to R114, Tables 4.4 to 4.8; 03 R64, R72, R84; 08 R190, R193. How many units of a row WLOADW reads at once is the
model's choice (log 11). -/
def Obligations.MatrixRows : Prop :=
  (∀ (a w : Weight) (A : Int),
    let r := cellProduct a w A
    r.poison = (a.poison || w.poison) ∧
    ((a.v = .nan ∨ w.v = .nan) → r.nan = true ∧ r.v = 0 ∧ r.clamp = false) ∧
    (a.v ≠ .nan → w.v ≠ .nan → (a.v = .zero ∨ w.v = .zero) → r.nan = false ∧ r.v = 0 ∧ r.clamp = false) ∧
    ∀ sa ga sw gw, a.v = .num sa ga → w.v = .num sw gw →
      let n := (linMag 8 (ga + gw) * 2 ^ (40 - A)).floor
      r.nan = false ∧ r.v = (if sa = sw then min n (2 ^ 63 - 1) else -min n (2 ^ 63 - 1)) ∧ r.clamp = decide (2 ^ 63 - 1 < n)) ∧
  (∀ (old : AccEntry) (cs : List Contrib) (add : Bool),
    let p := cs.any (·.poison) || (old.poison && add)
    let z := (if add then old.val.toInt else 0) + (cs.map (·.v)).sum
    let v := if z < -2 ^ 63 then -2 ^ 63 + 1 else if 2 ^ 63 - 1 < z then 2 ^ 63 - 1 else z
    (cs.any (·.nan) = true → columnFoot old cs add = { val := 0, sat := true, poison := p } ∧ columnFlags old cs add = flNV) ∧
    (cs.any (·.nan) = false →
      columnFoot old cs add = { val := BitVec.ofInt 64 v, sat := decide (v ≠ z) || cs.any (·.clamp) || (old.sat && add), poison := p } ∧
      columnFlags old cs add = if v ≠ z ∨ cs.any (·.clamp) = true then flSAT else 0)) ∧
  ∀ (s : State) (m : MCmd),
    let t := s.focus.tile
    let x := s.tile t
    let now := s.tickOf t
    let off := m.off now
    let e := Entry.ofImage m.image
    -- the 128 elements of row r of a slot, and the weights of a set
    let slotRow := fun (slot : Nat) (B : BlkFmt) (r : Nat) => (List.range 128).map fun k =>
      let blk := x.om.read (slot * 0x4800 + (8 * r + k / 16) * B.bytes) B.bytes
      B.weight (blk.map (·.1)) (blk.map (·.2)) (k % 16)
    let weight := fun (y : Tile) (k j : Nat) => (y.wset m.loader).at k j
    let anchor := fun (row : Nat) => (FMap.getD x.anchors (row / 16) 0).toInt
    let does := fun (P : State → MCmd → Prop) => ∃ u n, exec .engineStep s = .next u ∧ (u.tile t).findM s.focus.id = some n ∧ P u n
    x.findM s.focus.id = some m → m.head.st = .running →
    (∀ tr ovw, m.op = .stream tr ovw → (∀ r ∈ m.pipe, off ≤ r.i + 257) → (m.pipe.map (·.i)).Nodup →
      does fun u n =>
        let products := fun (r : RowInFlight) (j : Nat) => (List.range r.ops.length).map fun k =>
          cellProduct (r.ops.getD k {}) (if tr then weight x j k else weight x k j) (anchor (m.ar + r.i))
        (∀ r ∈ m.pipe, r.i + 130 ≤ off → (u.tile t).readAcc (m.ar + r.i) (off - (r.i + 130)) =
          columnFoot (x.readAcc (m.ar + r.i) (off - (r.i + 130))) (products r (off - (r.i + 130))) (!ovw)) ∧
        (∀ i j, j < 128 → (∀ r ∈ m.pipe, ¬(r.i + 130 + j = off ∧ m.ar + r.i = i)) → (u.tile t).readAcc i j = x.readAcc i j) ∧
        (∀ b, b < 6 → (n.head.flags.getLsbD b = true ↔ m.head.flags.getLsbD b = true ∨ ∃ r ∈ m.pipe, r.i + 130 ≤ off ∧
          (columnFlags (x.readAcc (m.ar + r.i) (off - (r.i + 130))) (products r (off - (r.i + 130))) (!ovw)).getLsbD b = true)) ∧
        (m.rows < m.rowGoal → m.rows ≤ off →
          let B := blkFmtOf e.af
          let row := m.a.toNat / 2 ^ 8 % 2 ^ 7 + m.rows * (m.a.toNat / 2 ^ 16 % 2 ^ 7 + 1)
          let ops := slotRow m.os B row ++ if (x.wset m.loader).wide then slotRow m.ot B row else []
          n.rows = m.rows + 1 ∧ n.pipe.getLast? = some { i := m.rows, ops := ops })) ∧
    (m.op = .wload → m.rows < m.rowGoal → m.rows ≤ off →
      does fun u n => n.rows = m.rows + 1 ∧ ∀ k j, j < 128 → weight (u.tile t) k j =
        (if (x.wset m.loader).wide ∧ k = 128 + m.rows then (slotRow m.ot (blkFmtOf e.bf) m.rows).getD j {}
         else if k = m.rows then (slotRow m.os (blkFmtOf e.bf) m.rows).getD j {} else weight x k j)) ∧
    (m.op = .wloadw →
      (∀ r rest, s.focus.args = [] → m.pipe = r :: rest → 2 * r.i + 12 ≤ off → does fun u n =>
        let cells := r.cells
        (∀ k j, j < 128 → weight (u.tile t) k j = if k = r.i then
          lb8.weight ((cells.drop (18 * (j / 16))).take 18 |>.map (·.1)) ((cells.drop (18 * (j / 16))).take 18 |>.map (·.2)) (j % 16)
          else weight x k j) ∧
        (u.tile t).om = (if m.omw then x.om.write (m.os * 0x4800 + 144 * r.i) cells else x.om) ∧
        n.head.flags = m.head.flags ||| r.flags ∧ n.puts = m.puts + 1) ∧
      (m.rows < m.rowGoal → 2 * m.rows ≤ off → (∀ g ∈ m.segs, ∃ d, g.space = .wstore d) →
        (s.focus.args = [1] ∨ s.focus.args = [] ∧ s.groupsFree (cutSegs m.segs m.rowRun.1 m.rowRun.2) = true) →
        let first := m.b.toNat % 2 ^ 32 + m.rows * (m.b.toNat / 2 ^ 32 % 2 ^ 16)
        -- the bytes of the row that stand read, then k more
        let read := fun k => (if m.carry.1 ≤ first then m.carry.2.drop (first - m.carry.1) else []) ++ s.readSide m.segs m.rowRun.1 k
        let raw := (read m.rowRun.2).take 256
        let blocks := (List.range 8).map fun b => lb8.encode (RMode.ofCode (m.b.toNat / 2 ^ 48 % 8))
          (fun j => stippleDraw m.head.seed m.head.step (128 * m.rows + 16 * b + j) 0) none none
          ((List.range 16).map fun j => .log 256 (lm16Decode (bytesVal ((raw.drop (32 * b + 2 * j)).take 2))))
        let bad := fun b => bytesPoison ((raw.drop (32 * b)).take 32)
        let cells := (List.range 8).flatMap fun b => ((blocks.getD b ([], 0)).1).map fun y => (y, bad b)
        let flags := orFlags ((List.range 8).map fun b => if bad b then 0 else (blocks.getD b ([], 0)).2) &&& (flSAT ||| flNX ||| flUF)
        does fun u n => ∃ k, (0 < m.rowRun.2 → 0 < k) ∧ k ≤ m.rowRun.2 ∧
          (k < m.rowRun.2 → n.rows = m.rows ∧ n.carry = (first, read k) ∧
            ∃ j, u.agenda = s.agenda ++ [j] ∧ j.instr = .engineStep ∧ j.focus.tile = t ∧ j.focus.id = m.head.id ∧ j.focus.args = [1]) ∧
          (k = m.rowRun.2 → n.rows = m.rows + 1 ∧ n.pipe.getLast? = some { i := m.rows, cells := cells, flags := flags }))) ∧
    (∀ rdw, m.op = .drain rdw → e.df ≤ 6 →
      let every := if rdw then 4 else 2
      let bytes := if rdw then 3072 else [512, 256, 256, 144, 112, 80, 1024].getD e.df 0
      let put := fun (r : RowInFlight) => m.pipe.head? = some r ∧ every * r.i + (if rdw then 9 else 7) ≤ off
      let mine := fun (r : RowInFlight) => m.omd = true ∨ s.goesM t m (m.putBanks r) = true
      let ent := fun (j : Nat) => x.readAcc (m.ar + m.rows) j
      let num := fun (j : Nat) => a64ToNum (anchor (m.ar + m.rows)) (ent j).val.toInt
      let mode := RMode.ofCode e.drnd
      let draw := fun (j : Nat) => stippleDraw m.head.seed m.head.step (128 * m.rows + j) 0
      (m.rows < m.rowGoal → every * m.rows + 1 ≤ off → ∃ (out : Nat → List Byte × Bool × Flags) (n : Nat),
        (rdw = true → n = 128 ∧ ∀ j, j < 128 →
          let r := Rdw.ofNum (BitVec.ofNat 16 (m.b.toNat / 2 ^ 48)).toInt false (num j)
          out j = (toBytes 8 r.1.b0.toNat ++ toBytes 8 r.1.b1.toNat ++ toBytes 8 r.1.b2.toNat, (ent j).poison, r.2)) ∧
        (rdw = false → e.df = 6 → n = 128 ∧ ∀ j, j < 128 → out j = (toBytes 8 (ent j).val.toNat, (ent j).poison, 0)) ∧
        (∀ F ∈ ([(0, fp32, 4), (1, fp16, 2), (2, bf16, 2)] : List (Nat × FpFmt × Nat)), rdw = false → e.df = F.1 → n = 128 ∧ ∀ j, j < 128 →
          let r := F.2.1.ofNum mode (draw j) (num j)
          out j = (toBytes F.2.2 r.1, (ent j).poison, r.2)) ∧
        (rdw = false → 3 ≤ e.df → e.df ≤ 5 → n = 8 ∧ ∀ b, b < 8 →
          let r := (blkFmtOf (e.df - 3)).encode mode (fun k => draw (16 * b + k)) none none
            ((List.range 16).map fun k => .lin (num (16 * b + k)))
          out b = (r.1, (List.range 16).any (fun k => (ent (16 * b + k)).poison), r.2)) ∧
        let cells := (List.range n).flatMap fun j => (out j).1.map fun b => (b, (out j).2.1)
        let flags := (if (List.range 128).any (fun j => (ent j).sat && !(ent j).poison) then flSAT else 0)
          ||| orFlags ((List.range n).map fun j => if (out j).2.1 then 0 else (out j).2.2)
        does fun u y => y.rows = m.rows + 1 ∧ y.pipe.getLast? = some { i := m.rows, cells := cells, flags := flags }) ∧
      does fun u n =>
        let clears := m.b.toNat / 2 ^ 17 % 2 = 1 ∧ m.cleared < m.rows ∧ every * m.cleared + 2 ≤ off
        (∀ i j, j < 128 → (u.tile t).readAcc i j = if clears ∧ i = m.ar + m.cleared then {} else x.readAcc i j) ∧
        n.cleared = (if clears then m.cleared + 1 else m.cleared) ∧
        ((∀ r, ¬put r) → (u.tile t).scratch = x.scratch ∧ (u.tile t).om = x.om ∧ n.head.delay = m.head.delay) ∧
        ∀ r, put r →
          (¬mine r → (u.tile t).scratch = x.scratch ∧ (u.tile t).om = x.om ∧ n.head.delay = m.head.delay + 1) ∧
          (mine r → n.head.flags = m.head.flags ||| r.flags ∧ n.head.written = m.head.written + bytes ∧
            (u.tile t).om = (if m.omd then x.om.write (m.os * 0x4800 + r.i * bytes) r.cells else x.om) ∧
            (u.tile t).scratch = if m.omd then x.scratch else x.scratch.write (m.a.toNat + r.i * bytes) r.cells)) ∧
    (m.op = .accclr → m.rows < m.rowGoal → m.rows ≤ off →
      does fun u n => n.rows = m.rows + 1 ∧ ∀ i j, j < 128 → (u.tile t).readAcc i j = if i = m.ar + m.rows then {} else x.readAcc i j) ∧
    (m.loadsEntry = true → m.loaded = false →
      let banks := banksOf m.a.toNat 8
      let image := x.scratch.read m.a.toNat 8
      let goes := s.goesM t m banks = true ∨ (m.head.since = none ∧ s.findsBanks (banks.map fun b => (t, b)) = true)
      does fun u n =>
        (¬goes → n.loaded = false ∧ n.head.delay = m.head.delay + 1) ∧
        (goes → bytesPoison image = false → imageValid (BitVec.ofNat 64 (bytesVal image)) = true →
          n.loaded = true ∧ n.b = BitVec.ofNat 64 (bytesVal image)) ∧
        (goes → bytesPoison image = true ∨ imageValid (BitVec.ofNat 64 (bytesVal image)) = false → n.head.st = .held)) ∧
    (let z := x.stepOne m
     z.acc = x.acc ∧ z.om = x.om ∧ z.scratch = x.scratch ∧
     (m.op = .wload → z.wset m.loader = { wide := decide (e.bf = 2), owner := m.head.ctx }) ∧
     (m.op = .wloadw → z.wset m.loader = { owner := m.head.ctx }) ∧
     (∀ tr, m.op = .stream tr true → ∀ k, FMap.getD z.anchors k 0 =
       if e.fixed = true ∧ m.ar ≤ 16 * k ∧ 16 * k + 16 ≤ m.ar + m.count then BitVec.ofInt 16 e.anc else FMap.getD x.anchors k 0) ∧
     (m.op = .anchor → ∀ k, FMap.getD z.anchors k 0 =
       if m.ar / 16 ≤ k ∧ k ≤ m.ar / 16 + m.os then m.a.truncate 16 else FMap.getD x.anchors k 0) ∧
     (m.op = .orelease → z.claims = x.claims.filter fun c => !(m.os ≤ c.1 && c.1 ≤ m.ot && c.2 == m.head.ctx)) ∧
     (m.op = .accpin true → z.pins = x.pins.filter fun c => !(m.ar / 16 ≤ c.1 && c.1 ≤ m.ar / 16 + m.os && c.2 == m.head.ctx))) ∧
    ((m.op = .wload ∨ m.op = .wloadw) → ((s.lastStep t m).tile t).wset m.loader = { (x.wset m.loader) with valid := true }) ∧
    (m.loadsEntry = true → ∀ i, FMap.getD ((s.lastStep t m).ctx t m.head.ctx).fmt i 0 =
      if i = m.os % 16 then m.b else FMap.getD (s.ctx t m.head.ctx).fmt i 0)

/-- 09 R216, R222, R223, R242, R243; 08 R191, R199; 07 R167, R168, R171 to R173; 10 R265, R269 to R272; 03 R61, R62, R70, R74. -/
def Obligations.TransferBeats : Prop :=
  -- BurnishOne (R172)
  (∀ j, j < 512 → (2 * gridTab 512 j - 1) ^ 512 < 2 ^ (j + 24 * 512) ∧ 2 ^ (j + 24 * 512) < (2 * gridTab 512 j + 1) ^ 512) ∧
  (∀ (r : RecipeImage) (w g m v draw : Nat),
    let u := burnishOne r w g m v draw
    let q := fun (d : Machine.Dyadic) => (d.1 : ℚ) * 2 ^ d.2
    let value := fun (neg : Bool) (n : Nat) (e : Int) => (if neg then -1 else 1 : ℚ) * n * 2 ^ e
    let finite := fun p => ∃ n k e, fp32.decode p = .fin n k e
    ((w = 0x8000 ∨ v = 0x8000 ∨ ¬finite g ∨ ¬finite m) → u = { w := w, m := m, v := v, flags := flNV }) ∧
    ∀ ng kg eg nm km em, fp32.decode g = .fin ng kg eg → fp32.decode m = .fin nm km em → w ≠ 0x8000 → v ≠ 0x8000 → v < 0x10000 →
      let G := value ng kg eg
      let M := value nm km em
      let L : ℚ := if v = 0 then 0 else linMag 256 ((v % 0x8000 : Nat) - 16384)
      ∃ (n1 : Bool) (k1 : Nat) (e1 : Int) (k2 : Nat) (e2 : Int), value n1 k1 e1 = q r.b1 * M + q r.c1 * G ∧ (k1 = 0 → n1 = false) ∧ k2 * 2 ^ e2 = q r.b2 * L + q r.c2 * G * G ∧
        let o := fp32.ofNum .rne 0 (.fin n1 k1 e1)
        let big := o.2 &&& flOF ≠ 0
        let o2 := if k2 = 0 then (0, 0) else lm16OfNum .rne 0 (.fin false k2 e2)
        let fl := (if big then flSAT ||| flNX else o.2) ||| o2.2
        u.m = (if big then (if n1 then 0xFF7FFFFF else 0x7F7FFFFF) else o.1) ∧ u.v = o2.1 ∧
        (w % 0x8000 = 0 → u.w = w ∧ u.flags = fl) ∧
        (w % 0x8000 ≠ 0 → ∃ (n3 : Bool) (k3 : Nat) (e3 : Int) (n4 : Bool) (k4 : Nat) (e4 : Int), fp32.decode u.m = .fin n3 k3 e3 ∧
          let h0 := (r.eps : Int) - 16384
          let h := if u.v = 0 then h0 else max h0 ((u.v % 0x8000 : Nat) - 16384)
          let step := value n3 k3 e3 * linMag 512 (-h)
          value n4 k4 e4 = q r.eta * (if 0x8000 ≤ w % 0x10000 then -1 else 1) * min (max step (-q r.dmax)) (q r.dmax) * 65536 ∧
          let x := 256 * (w % 0x8000 : Nat) - (roundInt .rne 0 n4 k4 e4).1
          let up := x % 256 ≠ 0 ∧ if r.stipple then draw < (x % 256).toNat * 256 else 128 < x % 256 ∨ (x % 256 = 128 ∧ x / 256 % 2 ≠ 0)
          let c := if up then x / 256 + 1 else x / 256
          u.w = (if 0x8000 ≤ w % 0x10000 then 0x8000 else 0) + (max 1 (min 32767 c)).toNat ∧
          u.flags = fl ||| (if x % 256 ≠ 0 then flNX else 0) ||| (if 32767 < c then flSAT else 0) ||| (if c < 1 then flUF else 0))) ∧
  (∀ (x : XCmd) (r : RecipeImage),
    let c := BurnishCtl.ofWord x.d
    let i := x.groups
    let E := if c.gf = 1 then 24 else 4
    let at' := fun (l : List (Byte × Bool)) (a n : Nat) => (l.drop a).take n
    -- what has been read: the weights, the gradients, the state
    let ws := x.weights
    let gs := x.buf
    let ps := x.buf.drop (64 * E)
    let new := fun (k : Nat) =>
      let g := if c.gf = 1 then rdwGradient r.q ((at' gs (E * k) E).map (·.1)) else (bytesVal (at' gs (E * k) E), 0)
      let u := burnishOne r (bytesVal (at' ws (2 * k) 2)) g.1 (bytesVal (at' ps (4 * k) 4)) (bytesVal (at' ps (256 + 2 * k) 2))
        (stippleDraw x.head.seed x.head.step (64 * (c.gofs + i) + k) 0)
      (u, bytesPoison (at' ws (2 * k) 2) || bytesPoison (at' gs (E * k) E) || bytesPoison (at' ps (4 * k) 4) || bytesPoison (at' ps (256 + 2 * k) 2),
        g.2 ||| u.flags)
    let news := (List.range 64).flatMap fun k => (toBytes 2 (new k).1.w).map fun b => (b, (new k).2.1)
    let y := x.burnishGroup r
    y.groups = i + 1 ∧ y.buf = [] ∧
    y.panel = x.panel ++ ((List.range 64).flatMap fun k => (toBytes 4 (new k).1.m).map fun b => (b, (new k).2.1)) ++
      ((List.range 64).flatMap fun k => (toBytes 2 (new k).1.v).map fun b => (b, (new k).2.1)) ∧
    y.head.flags = x.head.flags ||| orFlags ((List.range 64).map fun k => if (new k).2.1 then 0 else (new k).2.2) ∧
    -- unit u of the weights holds their bytes from 32u less what stands before the first of them in its unit
    ∀ u,
      let lo := 32 * u - x.skew
      let hi := min (32 * (u + 1) - x.skew) (128 * c.groups)
      let a := max lo (128 * i) - 128 * i
      FMap.getD y.tail u [] = FMap.getD x.tail u [] ++
        if u ∈ x.unitsFrom i 1 then (news.drop a).take (min (hi - 128 * i) 128 - a) else []) ∧
  (∀ (s : State) (x : XCmd) (all : Bool) (u : Nat),
    let lo := 32 * u - x.skew
    let n := min (32 * (u + 1) - x.skew) (128 * (BurnishCtl.ofWord x.d).groups) - lo
    let g := cutSegs x.pinned lo n
    let b := FMap.getD x.tail u []
    let put := s.putWeights all [u] x
    (b.length ≠ n ∨ s.groupsFree g = false → put = (s, x)) ∧
    (put = (s, x) ∨ put = ((s.writeSide g 0 b).useGroups g, { x with tail := FMap.erase x.tail u })) ∧
    (all = true → b.length = n → s.groupsFree g = true → put.1 = (s.writeSide g 0 b).useGroups g)) ∧
  -- where the bytes of a piece stand
  (∀ (s : State) (g : Seg) (a n : Nat) (bs : List (Byte × Bool)),
    (∀ t, g.space = .scratch t → s.readSeg g a n = (s.tile t).scratch.read (g.off + a) n ∧
      s.writeSeg g a bs = s.modTile t fun x => { x with scratch := x.scratch.write (g.off + a) bs }) ∧
    (∀ t, g.space = .om t → s.readSeg g a n = (s.tile t).om.read (g.off + a) n ∧
      s.writeSeg g a bs = s.modTile t fun x => { x with om := x.om.write (g.off + a) bs }) ∧
    (∀ d, g.space = .wstore d → s.readSeg g a n = (s.die d).wstore.read (g.off + a) n ∧
      s.writeSeg g a bs = s.modDie d fun x => { x with wstore := x.wstore.write (g.off + a) bs }) ∧
    (∀ t, g.space = .acc t →
      (∀ i, i < n → (s.readSeg g a n)[i]? =
        let e := FMap.getD (s.tile t).acc ((g.off + a + i) / 8) {}
        some (BitVec.ofNat 8 (e.val.toNat / 256 ^ ((g.off + a + i) % 8)), e.poison)) ∧
      ((g.off + a) % 8 = 0 → bs.length % 8 = 0 → ∀ k,
        let cells := (bs.drop (8 * (k - (g.off + a) / 8))).take 8
        FMap.getD ((s.writeSeg g a bs).tile t).acc k {} =
          if (g.off + a) / 8 ≤ k ∧ k < (g.off + a + bs.length) / 8 then { val := BitVec.ofNat 64 (bytesVal cells), sat := false, poison := bytesPoison cells }
          else FMap.getD (s.tile t).acc k {}))) ∧
  ∀ s : State,
    let t := s.focus.tile
    let id := s.focus.id
    let x := s.tile t
    let d := dieOf t
    let now := s.tickOf t
    x.findM id = none →
    (∀ y, x.findX id = some y → y.head.st = .running →
      let sets := fun (u : State) (z : XCmd) => u.modTile t fun w => w.setX z
      (y.moves = true → x.beat = none → x.fetch = some id → y.fetches = true →
        s.goesX t id false y.fetchPieces = true →
        (y.wantsIndex = false → ∀ at' left, y.wants = some (at', left) → s.sourceBad y = 0 → ∃ n, n ≤ left ∧
          exec .engineStep s = .next (sets ((s.noteAccess id (cutSegs y.src.segs at' n)).useGroups (cutSegs y.src.segs at' n)) { y with
            buf := y.buf ++ s.readSide y.src.segs at' n, srcAt := at' + n, fetchSince := none, asked := none })) ∧
        (y.wantsIndex = true →
          let size := if bitAt y.d.toNat 29 then 8 else 4
          let k := y.head.steps - 1
          let raw := s.readSide (cutSegs y.list.segs (k * size) size) 0 size
          let E := y.d.toNat / 2 ^ 16 % 2 ^ 13
          let off := if bitAt y.d.toNat 30 then bytesVal raw * E else bytesVal raw
          let bad := bytesPoison raw = true ∨ 4096 * (y.d.toNat / 2 ^ 40) < off + E
          (¬bad → exec .engineStep s = .next (sets s { y with
            unit := some (if y.op = .gather then (off, k * E, E) else (k * E, off, E))
            srcAt := if y.op = .gather then off else k * E, dstAt := if y.op = .gather then k * E else off, fetchSince := none })) ∧
          (bad → ∃ u, exec .engineStep s = .next u ∧ (u.ctx t y.head.ctx).pendingFaults = (s.ctx t y.head.ctx).pendingFaults ++
            [{ kind := .engine, cause := 0x2A, pc := y.head.pc, slot := BitVec.ofNat 4 y.head.slot, estep := BitVec.ofNat 16 (2 + k)
               addr := BitVec.ofNat 64 k, level := 0, cmd := y.head.id }]))) ∧
      (y.moves = true → x.beat = some id → x.fetch = none → y.mayPut = true → s.goesX t id true y.putPieces = true →
        ∀ da left, y.puts = some (da, left) →
          let first := if y.dstAt ≤ y.span.1 then firstRefused y.dst.segs da (y.buf.take left) else none
          (first = none → s.sideBad y.dst = 0 → y.dst.isRemote = false → ∃ n z, n ≤ left ∧
            exec .engineStep s = .next (sets (((s.writeSide y.dst.segs da (y.buf.take n)).noteAccess id (cutSegs y.dst.segs da n)).useGroups
              (cutSegs y.dst.segs da n)) z) ∧
            z.buf = y.buf.drop n ∧ z.dstAt = da + n ∧ z.head.written = y.head.written + n ∧ z.status = y.status ∧
            z.head.steps = (if y.span.2 ≤ da + n then y.head.steps + 1 else y.head.steps)) ∧
          (∀ j, first = some j → ∃ u, exec .engineStep s = .next u ∧ (u.ctx t y.head.ctx).pendingFaults = (s.ctx t y.head.ctx).pendingFaults ++
            [{ kind := .engine, cause := 0x10, pc := y.head.pc, slot := BitVec.ofNat 4 y.head.slot, estep := BitVec.ofNat 16 (2 + (y.head.steps - 1))
               addr := BitVec.ofNat 64 (y.src.va + y.sourceOf (da + j)), level := 0, cmd := y.head.id }])) ∧
      (y.moves = false → y.stopped = false → y.status = 0 → s.waitsFor d id true (y.reads ++ y.writes) = false → (s.die d).downLinks.contains 4 = false →
        let answers := fun (u : State) (v : SReg) (n : Nat) =>
          exec .engineStep s = .next (sets u { y with value := some v, stopped := true, head := { y.head with written := n, steps := 2 } })
        (y.op = .smld → s.sideBad y.src = 0 →
          let bytes := s.readSide y.src.segs 0 (SmCtl.ofWord y.d).len
          answers s { val := BitVec.ofNat 64 (bytesVal bytes), poison := bytesPoison bytes } 0) ∧
        (y.op = .smst → s.sideBad y.dst = 0 →
          let n := (SmCtl.ofWord y.d).len
          answers (s.writeSide y.dst.segs 0 ((toBytes n (y.c.toNat % 2 ^ (8 * n))).map fun b => (b, y.dataPoison))) {} n) ∧
        (∀ op g rest w, y.op = .smatom op → s.sideBad y.dst = 0 → y.dst.segs = g :: rest → g.space = .switch w →
          let n := g.off / sheetSize
          let h := s.sheet (s.home w n) n
          let tweak := sheetTweak w n (s.sheet w n).gen.toNat
          let raw := h.read h.pair tweak (g.off % sheetSize) 8
          let old := BitVec.ofNat 64 (bytesVal raw)
          let new : Word := match op with
            | .add => old + y.c
            | .swap => y.c
            | .cas => if old = y.c then y.d else old
            | .minI => if y.c.toInt < old.toInt then y.c else old
            | .maxI => if old.toInt < y.c.toInt then y.c else old
            | .minN => if y.c.toNat < old.toNat then y.c else old
            | .maxN => if old.toNat < y.c.toNat then y.c else old
          h.hasPair = true →
            (bytesPoison raw = true → answers s { val := old, poison := true } 0) ∧
            (bytesPoison raw = false → answers (s.modSheets w n fun z => z.write h.pair tweak (g.off % sheetSize) ((toBytes 8 new.toNat).map fun b => (b, false)))
              { val := old } 8)))) ∧
    (x.findX id = none → ∀ f, (x.fq.find? fun f => f.head.id == id) = some f → f.due now = true →
      let j := f.handled
      let cells := match f.beats[j]? with | some b => b.bytes.zip b.poison | none => []
      let next := { f with handled := j + 1, head := { f.head with steps := f.head.steps + 1 } }
      let moved := { next with head := { next.head with written := 64 * (j + 1) } }
      let flies := fun (b : Beat) => ∀ n, meshNeighbour t f.port = some n → f.port < 4 →
        exec .engineStep s = .next (({ s with nextId := s.nextId + 1, air := s.air ++ [{ die := d, due := now + if dieOf n = d then 1 else 13
                                                                                         tile := n, port := (f.port + 2) % 4, beat := b, id := s.nextId }] } : State).modTile t fun y => y.setF next)
      (f.op = .send → let l := x.scratch.read (f.a + 64 * j) 64
        flies { bytes := l.map (·.1), poison := l.map (·.2) }) ∧
      (f.op = .relay → ∀ b, f.beats[j]? = some b → flies b) ∧
      (f.op = .recv → exec .engineStep s = .next (s.modTile t fun y => ({ y with scratch := y.scratch.write (f.a + 64 * j) cells } : Tile).setF moved)) ∧
      (f.op = .addReg → exec .engineStep s = .next (s.modTile t fun y => y.setF { f with handled := f.n })) ∧
      (f.op = .addAcc false → ∃ u g, exec .engineStep s = .next u ∧
        let base := f.a / 8 + 8 * j
        let got8 := match f.beats[j]? with | some b => b.bytes | none => []
        let old := fun k => FMap.getD x.acc k {}
        let sum := fun k => (old k).val.toInt + (BitVec.ofNat 64 (ofBytes ((got8.drop (8 * (k - base))).take 8)) : Word).toInt
        let got := fun k => if sum k < -2 ^ 63 then -2 ^ 63 + 1 else if 2 ^ 63 - 1 < sum k then 2 ^ 63 - 1 else sum k
        (∀ k, FMap.getD (u.tile t).acc k {} = if base ≤ k ∧ k < base + 8
          then { val := BitVec.ofInt 64 (got k), sat := (old k).sat || decide (got k ≠ sum k), poison := (old k).poison } else old k) ∧
        ((u.tile t).fq.find? fun f => f.head.id == id) = some g ∧ g.handled = j + 1 ∧ g.head.written = 64 * (j + 1) ∧
        g.head.flags = f.head.flags ||| if (List.range 8).any (fun i => got (base + i) != sum (base + i)) then flSAT else 0) ∧
      (f.op = .addAcc true → ∃ u, exec .engineStep s = .next u ∧
        let old := fun k => FMap.getD x.acc k {}
        let word := fun r i => BitVec.ofNat 64 (ofBytes (((f.beats.flatMap (·.bytes)).drop (24 * r + 8 * i)).take 8))
        ∀ r, 64 * j / 24 ≤ r → r < 64 * (j + 1) / 24 → ∀ i, i < 3 →
          let e := f.a / 8 + 3 * r
          let sum := (⟨(old e).val, (old (e + 1)).val, (old (e + 2)).val⟩ : Rdw).add ⟨word r 0, word r 1, word r 2⟩
          FMap.getD (u.tile t).acc (e + i) {} =
            { val := match i with | 0 => sum.b0 | 1 => sum.b1 | _ => sum.b2, sat := (old (e + i)).sat
              poison := (old e).poison || (old (e + 1)).poison || (old (e + 2)).poison }))

/-- 13 R343 to R346, R352, R358; 11 R294, R296; 10 R259; 01 R17; 02 R24, R26, R47. TRAPSLOT 0 of the traps that no slot raises is log 63,
the timers' moments are log 67, the address of a failed fetch log 77: the model's choices. A watchdog yields to an engine fault: R346. -/
def Obligations.TrapAndFaultEvents : Prop :=
  ∀ s : State,
    let t := s.focus.tile
    let c := s.focus.ctx
    let k := s.ctx t c
    let x := s.tile t
    let now := s.tickOf t
    let traps := fun (i : Instr) (cause slot : Nat) (addr : Word) =>
      ∃ u, exec i s = .next u ∧ (u.ctx t c).registers = k.registers ∧ (u.ctx t c).st = .trapping ∧ (u.ctx t c).inflight = k.inflight ∧
        (u.ctx t c).pendingTrap = some ({ kind := .precise, cause := BitVec.ofNat 8 cause, pc := k.pc, slot := BitVec.ofNat 4 slot, addr := addr
                                          ret := k.pc }, now) ∧
        u.lasting = s.lasting ∧ (u.tile t).lasting = x.lasting ∧ (∀ n, n ≠ t → u.tile n = s.tile n) ∧ ∀ d, d ≠ c → u.ctx t d = s.ctx t d
    exec .quantumExpiry s = .next (s.modTile t fun x => { x with yielded := true }) ∧
    (k.regionmax.toNat < k.regionTimer → k.trapcause = 0 → traps .regionLimitExpiry 0x08 0 (BitVec.ofNat 64 k.regionTimer)) ∧
    (k.inFtr = true → k.ftrmax.toNat < k.ftrTimer → traps .ftrTimerExpiry 0x13 0 (BitVec.ofNat 64 (8 * 2 ^ 56 + k.ftrTimer % 2 ^ 48))) ∧
    (0 < k.wdog.toNat → k.wdog.toNat * 65536 < k.blockedFor → (∃ w, k.st = .blocked w) → k.pendingFaults = [] →
      traps .progressWatchdog 0x09 0 (BitVec.ofNat 64 k.blockedFor)) ∧
    (k.pendingFaults ≠ [] → k.trapcause = 0 → k.farAcq = none → k.preempt = none → exec .progressWatchdog s = .next s) ∧
    (∀ ch m cause addr ph, fetch x k = .fails ch → ch.kind = .trap m cause addr ph → traps .illegalCodeWord cause 0 addr) ∧
    (∀ slot word, s.focus.args = [slot, word] → traps .unassignedOpcode 0x02 slot (BitVec.ofNat 64 word)) ∧
    (∀ r m, k.st = .trapping → k.inflight = [] → k.pendingTrap = some (r, m) → m < now →
      (r.kind ≠ .translation → k.trapcause = 0 → k.tvec ≠ 0 → ∃ u, exec .trapEntry s = .next u ∧
        u.ctx t c = { k with st := .ready, pendingTrap := none, trapcause := r.cause, trappc := r.pc, trapslot := r.slot, estep := r.estep
                             trapaddr := r.addr, engineFlag := r.cmd != 0, retPoint := k.pc, heldCmd := r.cmd, lvl := 1, pc := k.tvec
                             pendingStep := false } ∧
        u.lasting = s.lasting ∧ (∀ n, n ≠ t → u.tile n = s.tile n) ∧ ∀ d, d ≠ c → u.ctx t d = s.ctx t d) ∧
      (r.kind = .translation ∨ k.trapcause ≠ 0 ∨ k.tvec = 0 → ∃ u, exec .trapEntry s = .next u ∧
        (u.ctx t c).st = .parked ∧ (u.ctx t c).pendingTrap = none ∧ (u.ctx t c).parkHeld = r.cmd ∧
        (u.ctx t c).parkedKind = (if r.kind = .translation then 1 else 0) ∧ (u.ctx t c).pc = k.pc ∧ (u.ctx t c).lvl = k.lvl ∧
        ((s.die (dieOf t)).waiting = [] → s.slotDone (dieOf t) = true → s.nextId ≠ 0 →
          (u.ctx t c).ticket = some (dieOf t * 2 ^ 32 + (s.die (dieOf t)).seq.toNat)))) ∧
    let d := s.focus.die
    let y := s.die d
    ∀ e rest, y.waiting = e :: rest → y.retestAt ≤ y.tick →
      (s.slotDone d = false → exec .faultQueueRetest s = .next ((s.hbmUsed 0).modDie d fun x => { x with retestAt := y.tick + 4096 })) ∧
      (rest = [] → s.slotDone d = true → exec .faultQueueRetest s = .next (s.writeEntry d e) ∧
        ((s.writeEntry d e).die d).seq = if y.seq = 0xFFFFFFFF then 1 else y.seq + 1)

/-- 13 R359 to R365, R354; 11 R297, R309; 12 R335; 04 R90; 17 R395. The first fill comes 4 cycles after the restore: log 81. The image
of a context is kept as data: log 53; what an upset byte of it poisons: log 90. -/
def Obligations.PreemptionEvents : Prop :=
  ∀ s : State,
    let t := s.focus.tile
    let c := s.focus.ctx
    let k := s.ctx t c
    let x := s.tile t
    let now := s.tickOf t
    let alone := fun (u : State) => u.lasting = s.lasting ∧ (u.tile t).lasting = x.lasting ∧ (∀ n, n ≠ t → u.tile n = s.tile n) ∧
      ∀ d, d ≠ c → u.ctx t d = s.ctx t d
    let goes := fun (i : Instr) (k' : Ctx) => ∃ u, exec i s = .next u ∧ u.ctx t c = k' ∧ alone u
    let free := (∀ e ∈ x.ctxs, e.2.inFtr = false) ∧ k.lockLeft = none ∧ k.farAcq = none
    let stands := k.st = .ready ∨ k.st = .paused ∨ ∃ w, k.st = .blocked w
    (x.live c = true → (stands ∨ k.st = .trapping ∨ k.st = .parked) →
      (∀ n tick, k.preempt = none → s.focus.args = [n, tick] →
        goes .preemptionRequest { k with preempt := some { urgent := n != 0, effectTick := tick } }) ∧
      (∀ p, k.preempt = some p → s.focus.args = [] → p.live = false → p.effectTick ≤ now → free →
        goes .preemptionRequest { k with preempt := some { p with live := true } })) ∧
    (∀ p, k.preempt = some p → p.live = true →
      (p.urgent = false → free →
        (k.st = .ready → s.atRegion t c = true → s.idleNow t c = true → goes .lazyPreemption { k with st := .saving, literalPaid := false }) ∧
        (k.st = .ready → s.atRegion t c = true → s.idleNow t c = false → goes .lazyPreemption { k with preempt := some { p with atRgn := true } }) ∧
        (k.st = .ready → s.atRegion t c = false → goes .lazyPreemption { k with preempt := some { p with atRgn := false } }) ∧
        (stands → k.st ≠ .ready → k.nonRepeatable = false → p.atRgn = false → ∃ u, exec .lazyPreemption s = .next u ∧
          u.ctx t c = { k with preempt := some { p with urgent := true } })) ∧
      (p.urgent = true → stands →
        (p.rolling = true → s.idleNow t c = true → goes .urgentPreemption
          { k with st := .saving, pc := k.check.pc, pcOver := false, rbase := k.check.rbase, loops := k.check.loops, links := k.check.links
                   literalPaid := false, walks := [] }) ∧
        (p.rolling = false → k.nonRepeatable = true → goes .urgentPreemption { k with preempt := some { p with urgent := false } }) ∧
        (p.rolling = false → k.nonRepeatable = false → ∃ u, exec .urgentPreemption s = .next u ∧
          u.ctx t c = { k with preempt := some { p with rolling := true } } ∧
          (∀ m, m ∈ (u.tile t).xq ↔ m ∈ x.xq ∧ ¬(m.head.ctx = c ∧ m.head.region = k.regionNo ∧ m.head.st = .queued ∧ m.head.begunOnce = false)) ∧
          ∀ m ∈ (u.tile t).mq, m.head.ctx = c → m.head.region = k.regionNo → m.head.st = .queued → m.head.begunOnce = true))) ∧
    (x.live c = true → k.st = .saving → ∃ u v, exec .contextSave s = .next u ∧ (u.tile t).live c = false ∧ v ∈ u.saved ∧
      v.tile = t ∧ v.back = t ∧ v.num = c ∧ v.parked = false ∧ v.pins = x.pinnedBy c ∧ v.sems = x.semRange k ∧
      v.ctx = { k with st := .saved, preempt := none, walks := [] }) ∧
    (∀ v, (s.saved.find? fun v => v.owner == s.focus.id) = some v → v.ctx.st ≠ .ending → v.parked = false →
      (s.die (dieOf v.back)).fenced = false → s.leaving v.back = false → (FMap.get? s.keys v.keySlot).isSome = true → s.pairOf v.keySlot = v.pair →
      (s.tile v.back).freeNumbers v.ctx.valloc.toNat ≠ [] → ∃ u d, exec .contextRestore s = .next u ∧
        d < 4 ∧ (s.tile v.back).live d = false ∧ (∀ w ∈ u.saved, w.owner ≠ v.owner) ∧
        u.ctx v.back d = { v.ctx with st := .ready, absent := List.range v.ctx.valloc.toNat, fillAt := s.tickOf v.back + 4 } ∧
        (∀ i, i < v.sems.length → (u.tile v.back).sem (v.ctx.sembase.toNat + i) = v.sems.getD i {}) ∧
        (∀ r ∈ v.pins,
          let byte := fun i => s.hbmByte v.pair (0x5FF0000000 + v.tile * 0x140000 + 0x18000 + 0x4980 * r + i)
          (∀ row col, row < 16 → col < 128 → (u.tile v.back).readAcc (16 * r + row) col =
            let n := 128 * row + col
            let at' := 64 * (n / 7) + 9 * (n % 7)
            { val := BitVec.ofNat 64 (ofBytes ((List.range 8).map fun b => byte (at' + b))), sat := (byte (at' + 8)).getLsbD 0
              poison := (byte (64 * (n / 7) + 63)).getLsbD (n % 7) || ([at', at' + 1, at' + 2, at' + 3, at' + 4, at' + 5, at' + 6, at' + 7,
                at' + 8, 64 * (n / 7) + 63, 64 * 293, 64 * 293 + 1].any fun i => s.hbm.poisonAt (0x5FF0000000 + v.tile * 0x140000 + 0x18000 + 0x4980 * r + i)) }) ∧
          FMap.getD (u.tile v.back).anchors r 0 = BitVec.ofNat 16 (ofBytes [byte (64 * 293), byte (64 * 293 + 1)])) ∧
        (∀ e ∈ (s.tile v.back).pins, e.2 = v.owner → (e.1, d) ∈ (u.tile v.back).pins) ∧
        ((s.tile v.back).set0.owner = v.owner → (u.tile v.back).set0.valid = false) ∧
        ((s.tile v.back).set1.owner = v.owner → (u.tile v.back).set1.valid = false)) ∧
    (k.st = .ending → k.inflight = [] → s.idleOf t c = true → ∃ u, exec .contextEnd s = .next u ∧ (u.tile t).live c = false) ∧
    (x.live c = true → ∃ u, exec .contextLost s = .next u ∧ (u.ctx t c).st = .ending ∧ (u.ctx t c).pendingTrap = none ∧
      (u.ctx t c).pendingFaults = [] ∧ (FMap.getD (u.die (dieOf t)).errors 4 (0, 0)).2 = min ((FMap.getD (s.die (dieOf t)).errors 4 (0, 0)).2 + 1) 0xFFFFFFFF)

/-- 11 R278 to R292; 12 R330, R336. Where a member goes is log 31, the order of placement log 59, compaction's details log 75. -/
def Obligations.LaunchEvents : Prop :=
  ∀ s : State,
    let args := s.focus.args
    let t := s.focus.tile
    let id := s.focus.id
    let rejected := fun (u : State) (q code : Nat) (rest : List Posted) =>
      (u.queue q).recs = rest ∧ (u.queue q).checked = false ∧ (u.queue q).status = code ∧ u.launches = s.launches
    (∀ qp bytes p, args = qp :: bytes → FMap.get? s.pairs qp = some p → p.cls = 1 → bytes.length = 64 → s.boot.good = true →
      (256 ≤ (s.queue p.queue).recs.length → ∃ u, exec .launchRecordPost s = .next u ∧ u.queues = s.queues ∧
        u.outbox = s.outbox ++ [{ kind := 6, dest := qp }]) ∧
      ((s.queue p.queue).recs.length < 256 → ∃ u, exec .launchRecordPost s = .next u ∧ u.outbox = s.outbox ∧
        (u.queue p.queue).recs = (s.queue p.queue).recs ++ [{ record := BitVec.ofNat 512 (ofBytes (bytes.map (BitVec.ofNat 8))), tenant := p.tenant }] ∧
        ∀ q, q ≠ p.queue → u.queue q = s.queue q)) ∧
    (∀ p rest, (s.queue id).recs = p :: rest →
      let r := Rec.ofBits p.record
      ((s.queue id).checked = false → s.badRec id p = true → ∃ u, exec .launchHeadCheck s = .next u ∧ rejected u id 1 rest) ∧
      ((s.queue id).checked = false → s.badRec id p = false → s.foreignSem r = true → ∃ u, exec .launchHeadCheck s = .next u ∧ rejected u id 4 rest) ∧
      ((s.queue id).checked = true → s.waitError r = true → ∃ u, exec .launchHeadCheck s = .next u ∧ rejected u id 4 rest) ∧
      (((s.queue id).checked = true ∨ (s.badRec id p = false ∧ s.foreignSem r = false)) → s.waitError r = false →
        ∃ u, exec .launchHeadCheck s = .next u ∧ u.queue id = { s.queue id with checked := true } ∧ ∀ q, q ≠ id → u.queue q = s.queue q)) ∧
    (∀ q p rest, s.firedAt ≠ some (s.die 4).tick → s.boot.good = true → s.nextFire = some q → (s.queue q).recs = p :: rest →
      let r := Rec.ofBits p.record
      let fails := fun (code : Nat) => ∃ u, exec .launchFire s = .next u ∧ rejected u q code rest ∧ u.firedAt = s.firedAt ∧ u.lastQueues = s.lastQueues
      (s.readImage r.tenant (BitVec.ofNat 64 r.kimg) = none → fails 2) ∧
      ∀ k image, s.readImage r.tenant (BitVec.ofNat 64 r.kimg) = some (k, image) →
        (s.loopTable r image = none → fails 2) ∧
        (∀ tab, s.loopTable r image = some tab → parseLoops tab = none → fails 3) ∧
        ∀ tab loops, s.loopTable r image = some tab → parseLoops tab = some loops →
          (gatheringFits loops r.dieMask = false → fails 3) ∧
          (gatheringFits loops r.dieMask = true → ∃ u y, exec .launchFire s = .next u ∧ (u.queue q).recs = rest ∧ (u.queue q).checked = false ∧
            u.firedAt = some (s.die 4).tick ∧ u.lastQueues = FMap.insert s.lastQueues (q / 16) q ∧ u.launch s.nextId = some y ∧
            y = { record := p.record, queue := q, tenant := r.tenant, image := image, loops := loops, members := product (levelsOf loops 2)
                  indices := product (levelsOf loops 3), handed := y.handed, ranges := y.ranges } ∧
            let dies := (List.range 4).filter fun d => bitAt r.dieMask d && !(s.die d).fenced
            let chunk := max 1 r.chunk
            (levelsOf loops 3 = [] → y.handed = 0 ∧ y.ranges = []) ∧
            (levelsOf loops 3 ≠ [] → y.handed = min y.indices (dies.length * chunk) ∧ ∀ j d, dies[j]? = some d →
              FMap.getD y.ranges d [] = rangeFrom (min y.indices (j * chunk)) (min chunk (y.indices - min y.indices (j * chunk)))))) ∧
    (∀ x, s.launch id = some x → x.aborted = false → s.inTurn id x = true →
      (x.overDies = false → x.handed = 0 → ∃ u, exec .instanceStart s = .next u ∧ u.launch id =
        some { x with handed := 1, insts := FMap.insert x.insts s.nextId { index := 0, toPlace := List.range x.members } }) ∧
      ∀ i left y, x.overDies = true → bitAt x.dieMask s.focus.die = true → (s.die s.focus.die).fenced = false →
        FMap.getD x.ranges s.focus.die [] = i :: left →
        (let chunk := max 1 (Rec.ofBits x.record).chunk
         let n := min chunk (x.indices - x.handed)
         y = if left ≠ [] then { x with ranges := FMap.insert x.ranges s.focus.die left }
           else if x.again ≠ [] then { x with again := x.again.drop chunk, ranges := FMap.insert x.ranges s.focus.die (x.again.take chunk) }
           else { x with handed := x.handed + n, ranges := FMap.insert x.ranges s.focus.die (rangeFrom x.handed n) }) →
        x.members ≤ (s.targets x 0 { index := 0, die := some s.focus.die } (Config.freeNat s.free)).length →
        ∃ u, exec .instanceStart s = .next u ∧ u.launch id =
          some { y with insts := FMap.insert y.insts s.nextId { index := i, die := some s.focus.die, toPlace := List.range x.members } }) ∧
    (∀ inst x i r rest, args = [inst] → s.launch id = some x → FMap.get? x.insts inst = some i → i.toPlace = r :: rest →
      (∀ e ∈ s.launches, e.1 < id → x.queue / 16 ≤ e.2.queue / 16 → e.2.unplaced = false) →
      let n := s.draw.1
      let s1 := s.draw.2
      let ts := s1.targets x inst i n
      ∀ d f, ts[n / 8 % max 1 ts.length]? = some d → s1.fit x d n = some f → ∃ u, exec .memberPlace s = .next u ∧
        (u.ctx d f.num).registers = (x.member id inst i.index r f).registers ∧ (u.ctx d f.num).pc = BitVec.ofNat 17 f.cb ∧
        (u.ctx d f.num).st = (if rest = [] then .ready else .loading) ∧
        (∀ e c, (e, c) ≠ (d, f.num) → u.ctx e c =
          if rest = [] ∧ (s.ctx e c).inst = inst ∧ (s.ctx e c).st = .loading then { s.ctx e c with st := .ready } else s.ctx e c) ∧
        (∀ j, j < x.kernel.codeLen → (FMap.getD (u.tile d).code (f.cb + j) 0).toNat = (imgWord x.image j).1 % 2 ^ 16) ∧
        (∀ j, j < x.kernel.dictLen → (FMap.getD (u.tile d).dict (f.db + j) 0).toNat = (imgEntry x.kernel x.image j).1 % 2 ^ 384) ∧
        (∀ j, j < x.kernel.semCnt → (u.tile d).sem (f.sembase + j) = { value := BitVec.ofNat 16 (imgField x.image (320 + 2 * j) 2) })) ∧
    (∀ sem m q, let u := s.errLsem sem m
      u.lsems = (s.setLsem sem { m with err := true }).lsems ∧ u.queues = s.queues ∧
      (∀ y p rest, (q, y) ∈ s.queues → y.recs = p :: rest → u.waitError (Rec.ofBits p.record) = true →
        ⟨.launchHeadCheck, { id := q }⟩ ∈ u.agenda)) ∧
    (∀ b, s.mayMove t b = true ↔ dieOf t = dieOf b ∨ ∀ k ∈ s.ctxsOn t, (∀ e ∈ k.phslots, e.2.phaser.hub = true) ∧
      ∃ x, s.launch k.launch = some x ∧ bitAt (Rec.ofBits x.record).dieMask (dieOf b) = true ∧ (x.overDies = true → x.members = 1)) ∧
    (∀ due tenant, FMap.get? s.scrubs t = some (due, tenant) → due ≤ s.tickOf t → ∃ u, exec .scrub s = .next u ∧
      FMap.get? u.scrubs t = none ∧ (u.tile t).owner = some tenant ∧ (u.tile t).ctxs = [] ∧ (u.tile t).fifos = [] ∧ (u.tile t).scratch = {} ∧ (u.tile t).om = {} ∧
      (∀ a j, (u.tile t).readAcc a j = {}) ∧ (∀ i, (u.tile t).sem i = {}) ∧ (u.tile t).code = [] ∧ (u.tile t).dict = [] ∧
      (u.tile t).set0.valid = false ∧ (u.tile t).set1.valid = false ∧ ∀ n, n ≠ t → u.tile n = s.tile n) ∧
    (∀ b, s.moving = none → args = [b] → s.mayCompact t b = true → ∃ u, exec .compaction s = .next u ∧ u.moving = some (t, b) ∧
      ∀ e ∈ (u.tile t).ctxs, e.2.preempt.isSome = true) ∧
    (∀ a b, s.moving = some (a, b) → a ≠ b → (s.die (dieOf a)).fenced = false → (s.die (dieOf b)).fenced = false → s.tileQuiet a = true →
      (s.mayMove a b = false → exec .compaction s = .next { s with moving := none }) ∧
      (s.mayMove a b = true → ∃ u, exec .compaction s = .next u ∧ u.moving = none ∧ (u.tile b).scratch = (s.tile a).scratch ∧ (u.tile b).om = (s.tile a).om ∧
        (u.tile b).acc = (s.tile a).acc ∧ (u.tile b).sems = (s.tile a).sems ∧ (u.tile b).code = (s.tile a).code ∧
        (u.tile b).dict = (s.tile a).dict ∧ (u.tile b).claims = (s.tile a).claims ∧ (u.tile b).pins = (s.tile a).pins ∧
        (u.tile b).set0.valid = false ∧ (u.tile b).set1.valid = false ∧ ∀ v ∈ u.saved, v.back ≠ a)) ∧
    ∃ u, exec .masterElection s = .next u ∧
      ((∀ e ∈ s.launches, s.lostInsts e.2 = [] ∧ s.lostRanges e.2 = []) →
        u = { s with master := if (s.die s.master).fenced = true then (((List.range 4).filter fun d => !(s.die d).fenced).getD 0 s.master) else s.master })

/-- 10 R249 to R253, R255, R276, R277; 13 R366, R370; 17 R385 to R389. Link numbers log 32, parting log 36, a window's dies log 37, the
moment of an announcement log 43, drift below step N log 7. -/
def Obligations.RegistrationAndLinkEvents : Prop :=
  ∀ s : State,
    let args := s.focus.args
    let n := s.focus.die
    let x := s.die n
    let key := fun (d : Nat) => s.keyDie = some d
    let own := if s.isKey n then 4 * s.nodeId + n else x.keyId
    let hears := fun (u : State) (b : Beacon) =>
      let z := s.die b.dest
      let w := u.die b.dest
      let foreign := z.registered = true ∧ b.reg = true ∧ b.keyId ≠ if s.isKey b.dest then 4 * s.nodeId + b.dest else z.keyId
      z.fenced = false → s.edge b.dest b.link = true →
      (foreign → u.edge b.dest b.link = false ∧ w.keyoff = z.keyoff) ∧
      (¬foreign → FMap.get? w.heard b.link = some { heardAt := z.tick, dists := (z.tick, b.dist) ::
        (FMap.getD z.heard b.link { heardAt := z.tick }).dists.filter fun p => z.tick < p.1 + 4096 } ∧
      (key b.dest → w.keyoff = z.keyoff ∧ w.good = z.good ∧ w.registered = z.registered) ∧
      (¬key b.dest → w.parent = some b.link →
        let d := ((b.time + BitVec.ofNat 64 b.lb) - (BitVec.ofNat 64 z.tick + z.keyoff)).toInt
        let drifts := z.clock ≠ 0 ∨ (b.link < 4 ∧ (s.die b.link).clock ≠ 0)
        w.keyoff = z.keyoff + BitVec.ofInt 64 (if drifts ∨ 16 < d.natAbs then d else d.sign) ∧
        w.good = (if drifts ∨ 1 < d.natAbs then 0 else (if z.parent = some b.link then z.good else 0) + 1) ∧
        w.registered = (decide (8 ≤ w.good) && b.reg) ∧ w.keyId = b.keyId))
    (x.tick % 1024 = 0 → x.fenced = false → ∃ u, exec .beaconSend s = .next u ∧
      (∀ l, l < 5 → s.edge n l = true → ∃ b ∈ u.beacons, b.dest = l ∧ b.link = n ∧ b.due = (s.die l).tick + 12 ∧ b.lb = 12 ∧
        b.time = x.keyTime ∧ b.dist = (if s.isKey n then 0 else x.dist) ∧ b.reg = x.registered ∧ b.keyId = own ∧ b.stretch = x.pendingStretch) ∧
      ∀ p, p < 6 → s.edge n (5 + p) = true → s.loopback.getLsbD p = false → ∃ m ∈ u.outbox, m.kind = 5 ∧ m.dest = p ∧
        m.nums.take 4 = [x.keyTime.toNat, if s.isKey n then 0 else x.dist, if x.registered then 1 else 0, own]) ∧
    (∀ b, args = [] → (s.beacons.find? fun b => b.dest == n && b.due ≤ x.tick) = some b → ∃ u, exec .beaconReceive s = .next u ∧
      u.beacons = s.beacons.erase b ∧ hears u b) ∧
    (∀ p time dist reg kid, args = [p, time, dist, reg, kid] → dist ≤ 255 → exec .beaconReceive s = .next { s with beacons := s.beacons ++
      [{ dest := 4, link := 5 + p, due := (s.die 4).tick, lb := s.hubLat p, time := BitVec.ofNat 64 time, dist := dist, reg := reg != 0, keyId := kid }] }) ∧
    (¬key n → x.fenced = false → s.parentSilent n = true → ∃ u, exec .parentBeaconTimeout s = .next u ∧ (u.die n).registered = false ∧
      (u.die n).good = 0 ∧ (u.die n).keyoff = x.keyoff) ∧
    (∀ k d, key k → (s.die k).fenced = true → (∀ p, p < 6 → s.regPorts.getLsbD p = true → s.loopback.getLsbD p = true) → s.lowestLive = some d → ∃ u, exec .keyDieRedesignation s = .next u ∧
      u.keyDie = some d ∧ (u.die d).registered = true ∧ (u.die d).keyoff = 0 ∧ (u.die d).dist = 0 ∧
      ∀ e, e < 5 → e ≠ d → (s.die e).fenced = false → (u.die e).registered = false ∧ (u.die e).good = 0 ∧ (u.die e).dist = 255) ∧
    (∀ k, args = [] → key k → (s.die k).fenced = false → s.power.held ≠ 0 → (s.die k).pendingStretch = none → ∃ u, exec .stretchAnnounce s = .next u ∧
      u.power = { s.power with held := 0 } ∧ (u.die k).stretches = (s.die k).stretches ++ [(s.power.held, ((s.die k).keyTime + 0x40000#64).toNat)]) ∧
    (∀ k d, args = [d] → key k → (s.die k).fenced = false → ∃ u, exec .stretchAnnounce s = .next u ∧ u.power.held = max s.power.held (min d 65535)) ∧
    (∀ l, args = [l] →
      (l < 6 → ∃ u, exec .linkDown s = .next u ∧ u.hubLat l = 0 ∧ FMap.get? u.replays l = none ∧ ∀ d, d < 4 → FMap.getD (u.die d).linklat l 0 = 0) ∧
      (6 ≤ l → l < 10 → ∃ u, exec .linkDown s = .next u ∧ 4 ∈ (u.die (l - 6)).downLinks ∧ l - 6 ∈ (u.die 4).downLinks ∧
        (u.die (l - 6)).hubDownAt = some ((s.die (l - 6)).hubDownAt.getD (s.die 4).tick)) ∧
      (10 ≤ l → l < 14 → ∃ u, exec .linkDown s = .next u ∧ (dieLink l).2 ∈ (u.die (dieLink l).1).downLinks ∧
        (dieLink l).1 ∈ (u.die (dieLink l).2).downLinks) ∧
      (14 ≤ l → l < 22 → ∃ u, exec .linkDown s = .next u ∧ u.switch (l - 14) = { s.switch (l - 14) with portUp := false }) ∧
      (6 ≤ l → l < 10 → ∃ u, exec .linkTraining s = .next u ∧ 4 ∉ (u.die (l - 6)).downLinks ∧ l - 6 ∉ (u.die 4).downLinks ∧
        (u.die (l - 6)).hubDownAt = none) ∧
      (10 ≤ l → l < 14 → ∃ u, exec .linkTraining s = .next u ∧ (dieLink l).2 ∉ (u.die (dieLink l).1).downLinks ∧
        (dieLink l).1 ∉ (u.die (dieLink l).2).downLinks) ∧
      (14 ≤ l → l < 22 → ∃ u, exec .linkTraining s = .next u ∧ u.switch (l - 14) = { s.switch (l - 14) with portUp := true })) ∧
    (∀ p lat hub full loop far, args = [p, lat, hub, full, loop, far] → p < 6 → s.hubLat p = 0 → 0 < hub → hub ≤ 65535 →
      (full = 0 ∨ 120 ≤ lat ∧ lat ≤ 400) → ∃ u, exec .linkTraining s = .next u ∧ u.hubLat p = hub ∧
        (∀ d, d < 4 → (FMap.getD (u.die d).linklat p 0).toNat = if full = 0 then 0 else lat) ∧
        u.loopback.getLsbD p = decide (loop ≠ 0) ∧ u.farPorts.getLsbD p = decide (far ≠ 0)) ∧
    (∀ p lat hub full loop far, args = [p, lat, hub, full, loop, far] → p < 6 → s.hubLat p ≠ 0 → ∃ u, exec .linkTraining s = .next u ∧
      u = { s with farPorts := u.farPorts } ∧ ∀ q, q < 6 → u.farPorts.getLsbD q = if q = p then decide (far ≠ 0) else s.farPorts.getLsbD q) ∧
    (∀ p good, p < 6 → s.hubLat p ≠ 0 →
      (args = [p, good] → ∃ u, exec .flitReplay s = .next u ∧ FMap.getD u.replays p 0 = FMap.getD s.replays p 0 + 1 ∧
        u.outbox = s.outbox ++ [{ kind := 9, dest := p, nums := [good + 1] }] ∧
        u.agenda = (if 15 ≤ FMap.getD s.replays p 0 then [⟨.linkDown, { args := [p] }⟩] else []) ++ s.agenda) ∧
      (∀ a, args = [p, good, a] → a ≠ 0 → ∃ u, exec .flitReplay s = .next u ∧ FMap.get? u.replays p = none ∧ u.outbox = s.outbox)) ∧
    ((s.die 4).tick % 32768 = 0 → (s.die 4).tick ≠ 0 → ∃ u, exec .powerWindowEnd s = .next u ∧ u.power.limit = s.power.nextLimit ∧
      u.power.average = Config.freeNat s.free ∧ u.power.sensors = (List.range 4).map (fun i => Config.freeNat (s.free + 1 + i)) ∧ u.free = s.free + 5 ∧
      (s.power.limit * 1000 < Config.freeNat s.free → ∀ d ∈ s.lowerable, (u.die d).clockTo = some ((s.die d).step + 1, (s.die d).tick + 200))) ∧
    ∀ step due, x.clockTo = some (step, due) → due ≤ x.tick → ∃ u, exec .clockStepChange s = .next u ∧
      u.die n = { x with clock := if x.clock < step ∧ s.clockGuarded n = true then x.clock else step, clockTo := none } ∧ ∀ e, e ≠ n → u.die e = s.die e

/-- 13 R356, R366 to R371; 09 R238, R244, R246; 12 R334, R336, R337, R339; 17 R390, R393 to R395. Table updates log 34, a failed step
log 38, errors met log 41, requests of other packages log 42. -/
def Obligations.PackageEvents : Prop :=
  ∀ s : State,
    let args := s.focus.args
    let d := s.focus.die
    let t := s.focus.tile
    let w := s.focus.id
    let sends := fun (i : Instr) (m : Sent) => exec i s = .next { s with outbox := s.outbox ++ [m] }
    let errors := fun (v : State) (e kind : Nat) => FMap.getD (v.die e).errors kind (0, 0)
    (d < 4 → (s.die d).fenced = false → (args ≠ [] ∨ s.fenceDue d = true) → ∃ u, exec .dieFence s = .next u ∧ (u.die d).fenced = true ∧
      (u.die d).registered = false ∧ (∀ n, dieOf n = d → (u.tile n).ctxs = [] ∧ (u.tile n).mq = [] ∧ (u.tile n).xq = [] ∧ (u.tile n).fq = []) ∧
      (args.headD 0 ≠ 0 → (errors u d 5).2 = min ((errors s d 5).2 + 1) 0xFFFFFFFF) ∧ ∀ v ∈ u.saved, dieOf v.back ≠ d) ∧
    (∀ x, (s.tile t).findX s.focus.id = some x → x.unanswered (s.tickOf t) = true → exec .remoteRequestTimeout s =
      .next (s.modTile t fun y => y.setX { x with status := 3, asked := none, stopped := x.dst.isRemote })) ∧
    (∀ node tenant slot rsp inner write len bytes, args = node :: tenant :: slot :: rsp :: inner :: write :: len :: bytes →
      let n := if write = 0 then len else bytes.length
      (s.servedAt tenant slot rsp inner n = none → sends .remoteRequestArrival { kind := 4, dest := node, nums := [3] }) ∧
      ∀ g, s.servedAt tenant slot rsp inner n = some g →
        (n = 0 → sends .remoteRequestArrival { kind := 4, dest := node, nums := [0] }) ∧
        (n ≠ 0 → ∃ r, exec .remoteRequestArrival s = .next { s with inbound := s.inbound ++ [r], nextId := s.nextId + 1 } ∧
          r = { id := s.nextId, node := node, segs := [g], write := decide (write ≠ 0), since := (s.die r.agent).tick
                bytes := if write = 0 then [] else bytes.map fun b => (BitVec.ofNat 8 b, bitAt b 8) })) ∧
    (∀ r, args = [] → (s.inbound.find? fun r => r.id == w) = some r → s.inboundGoes r = true →
      let p := s.inboundPiece r
      let u := ((if r.write then s.writeSeg p 0 ((r.bytes.drop r.done).take p.len) else s).noteAccess 0 [p]).useGroups [p]
      let all := if r.write then [] else r.bytes ++ s.readSeg p 0 p.len
      let marks := all.map fun b => if b.2 then 1 else 0
      let total := segsLen r.segs
      (total ≤ r.done + p.len → exec .remoteRequestArrival s = .next { u with inbound := u.inbound.filter (fun a => a.id != r.id), outbox := u.outbox ++
        [if r.host then { kind := 2, dest := r.node, nums := marks, bytes := all.map (·.1) }
         else { kind := 4, dest := r.node, nums := 0 :: marks, bytes := all.map (·.1) }] }) ∧
      (r.done + p.len < total → ∃ since, exec .remoteRequestArrival s = .next { u with inbound := u.inbound.map fun a => if a.id = r.id then
        { r with done := r.done + p.len, granted := false, bytes := if r.write then r.bytes else all, since := since } else a })) ∧
    (w < 8 → (s.switch w).lost = false → ∃ u, exec .switchLossDeclared s = .next u ∧ (u.switch w).lost = true ∧
      (u.switch w).lossGen = (s.switch w).lossGen + 1 ∧
      let freed := fun (h : Sheet) => (if h.gen = 0xFFFF then { gen := h.gen, retired := true } else { gen := h.gen + 1 } : Sheet)
      let v := (w + 4) % 8
      ∀ n, let h := s.sheet w n
        let y := s.sheet v n
        u.sheet w n = (if h.live = false then h else if h.mir = false ∨ h.alone = some w then freed h
          else if h.alone = none then { h with alone := some v } else h) ∧
        u.sheet v n = (if y.live = false ∨ y.mir = false then y else if y.alone = some w then freed y
          else if y.alone = none then { y with alone := some v } else y)) ∧
    ((s.switch w).failover = true → ∃ u, exec .mirrorFailoverComplete s = .next u ∧ u.switch w = { s.switch w with failover := false }) ∧
    (∀ v, args = [v] → v < 8 → ∃ u, exec .sheetTableUpdate s = .next u ∧
      let z := (if (s.switch v).lost then s else s.loseSwitch v).switch v
      u.switch v = { lossGen := (s.switch v).lossGen, portUp := (s.switch v).portUp, failover := z.failover
                     sheets := z.sheets.filter fun e => e.2.live && e.2.mir && e.2.primary == v && e.2.alone == some ((v + 4) % 8) }) ∧
    (∀ v n gen tenant ord perm slot, v < 8 → n < 262144 → 0 < gen → gen ≤ 65535 →
      (args = [v, n, gen, 1, tenant, ord, perm, slot] → ∃ u, exec .sheetTableUpdate s = .next u ∧
        u.sheet v n = { gen := BitVec.ofNat 16 gen, live := true, tenant := tenant, ord := ord, perm := perm, key := slot, primary := v
                        pair := s.pairOf slot, hasPair := true }) ∧
      (∀ first, args = [v, n, gen, 1, tenant, ord, perm, slot, 1, first] → ∃ u, exec .sheetTableUpdate s = .next u ∧
        u.sheet v n = { gen := BitVec.ofNat 16 gen, live := true, tenant := tenant, ord := ord, perm := perm, key := slot, mir := true, primary := first
                        alone := if (s.switch ((v + 4) % 8)).lost then some v else none, pair := s.pairOf slot, hasPair := true }) ∧
      (∀ off bytes, args = v :: n :: gen :: 2 :: off :: bytes → (s.sheet v n).live = true → (s.sheet v n).gen.toNat = gen → (s.switch v).lost = false →
        off + bytes.length ≤ 0x200000 → exec .sheetTableUpdate s = .next (s.writeSeg
          { va := off, space := .switch v, off := n * 0x200000 + off, len := bytes.length, key := (s.sheet v n).key } 0
          (bytes.map fun b => (BitVec.ofNat 8 b, bitAt b 8)))) ∧
      (args = [v, n, gen, 0] → ∃ u, exec .sheetTableUpdate s = .next u ∧ u.sheet v n = { gen := BitVec.ofNat 16 gen })) ∧
    (∀ e kind bad addr, let v := s.countError e kind bad addr
      errors v e kind = (if bad then ((errors s e kind).1, min ((errors s e kind).2 + 1) 0xFFFFFFFF)
        else (min ((errors s e kind).1 + 1) 0xFFFFFFFF, (errors s e kind).2))) ∧
    (∀ row unit err, args = [row, unit, err] →
      let meets := fun (u : State) (e addr : Nat) =>
        (err = 1 → exec .patrolRewrite s = .next ((if row = 7 then s.hbmUsed 0 else s).countError e row false addr)) ∧
        (err = 2 → exec .patrolRewrite s = .next (u.countError e row true addr))
      let marks := fun (m m' : Mem) (a n : Nat) => ∀ i, m'.byteAt i = m.byteAt i ∧ m'.poisonAt i = (m.poisonAt i || decide (a ≤ i ∧ i < a + n))
      let here := t < 192 ∧ (s.die (dieOf t)).fenced = false
      (row = 7 → 64 * unit < 0x6000000000 → ∃ m, marks s.hbm m (64 * unit) 64 ∧ meets { s.hbmUsed 0 with hbm := m } (64 * unit / 256 % 8 / 2) (64 * unit)) ∧
      (row = 6 → 32 * unit < 0xC0000000 → d < 4 → (s.die d).fenced = false → ∃ m, marks (s.die d).wstore m (32 * unit) 32 ∧
        meets (s.modDie d fun x => { x with wstore := m }) d (d * 2 ^ 32 + 32 * unit)) ∧
      (row = 0 → here → unit < 0x80000 → ∃ m, marks (s.tile t).scratch m (8 * unit) 8 ∧
        meets (s.modTile t fun x => { x with scratch := m }) (dieOf t) t) ∧
      (row = 1 → here → unit < 131072 → ∃ m, (∀ i, FMap.getD m i {} = if i = unit then { (FMap.getD (s.tile t).acc i {}) with poison := true }
          else FMap.getD (s.tile t).acc i {}) ∧ meets (s.modTile t fun x => { x with acc := m }) (dieOf t) t) ∧
      (row = 2 → here → unit < 32768 → ∃ m, (∀ i, (FMap.get? m i).isSome = ((FMap.get? (s.tile t).codeBad i).isSome || decide (i / 4 = unit))) ∧
        meets (s.modTile t fun x => { x with codeBad := m }) (dieOf t) t) ∧
      (row = 3 → (s.tile t).live s.focus.ctx = true → unit < 64 →
        meets (s.modCtx t s.focus.ctx fun k => k.setSreg unit { k.sreg unit with poison := true }) (dieOf t) t) ∧
      (∀ f, row = 9 → s.air = [f] → f.id = w → 4 ≤ f.port → f.beat.poison.length = 64 →
        meets { s with air := [{ f with beat := { f.beat with poison := List.replicate 64 true } }] } (dieOf t) t)) ∧
    (∃ u, exec .resetnAssert s = .next u ∧ u.boot.held = true ∧ u.boot.flash = s.boot.flash ∧ u.boot.burnt = s.boot.burnt ∧ u.tiles = State.reset.tiles ∧
      u.dies = State.reset.dies ∧ u.hbm = State.reset.hbm ∧ u.keys = State.reset.keys) ∧
    (s.boot.held = true →
      (args = [] → ∃ u, exec .packageReset s = .next u ∧ u.boot = s.boot.start ∧ u.tiles = State.reset.tiles ∧ u.dies = State.reset.dies ∧
        u.hbm = State.reset.hbm ∧ u.keys = State.reset.keys ∧
        u.outbox = s.outbox ++ if s.boot.start.good then [] else [{ kind := 1, dest := 0, nums := [3] }]) ∧
      ∀ failed, args = [failed] → ∃ u, exec .packageReset s = .next u ∧ u.boot.good = false ∧
        u.outbox = s.outbox ++ [{ kind := 1, dest := 0, nums := [failed] }]) ∧
    exec .nonRocePacket s = .next { s with dropped := s.dropped + 1 } ∧
    ∀ qp va,
      let takes := fun (i : Instr) (len : Nat) (write : Bool) (bytes : List (Byte × Bool)) =>
        (s.rdmaPlace qp va len write = none → sends i { kind := 6, dest := qp }) ∧
        ∀ segs, s.rdmaPlace qp va len write = some segs →
          (len = 0 → sends i { kind := 2, dest := qp }) ∧
          (len ≠ 0 → ∃ since, exec i s = .next { s with nextId := s.nextId + 1, inbound := s.inbound ++
            [{ id := s.nextId, node := qp, host := true, segs := segs, write := write, bytes := bytes, since := since }] })
      (∀ len, args = [qp, va, len] → takes .rdmaRead len false []) ∧
      ∀ bytes, args = qp :: va :: bytes → takes .rdmaWrite bytes.length true (bytes.map fun b => (BitVec.ofNat 8 b, false))

/-- 12 R321, R322, R327, R331, R332, R335, R336, R338 to R341, Table 12.6; 11 R281, R282; 10 R250; 17 R387, R390, R395, Table 17.6. The
numbers of a message and of a reply in their order and what counts as malformed are the model's choice (log 33), which dies register
afresh is its reading (log 35), and so is when ATTEST answers 2 (log 39). -/
def Obligations.ManagementMessages : Prop :=
  (∀ s : State,
    let m := Message.ofArgs s.focus.args
    let a := m.arg
    let reply := fun (u : State) (status : Nat) (nums : List Nat) (bytes : List Byte) =>
      ({ u with outbox := u.outbox ++ [{ kind := 1, dest := m.qp, nums := status :: nums, bytes := m.tag ++ bytes }] } : State)
    let comes := fun (opc n : Nat) => m.opc = opc ∧ m.zero = true ∧ ∀ x ∈ m.args.drop n, x = 0
    let starts := fun (i : Instr) (opc : Nat) (rs : List (Nat × Nat × Nat × Nat)) => ∃ u r, exec i s = .next u ∧ u.outbox = s.outbox ∧
      u.running = s.running ++ [r] ∧ r.opc = opc ∧ r.tag = m.tag ∧ r.qp = m.qp ∧ r.ranges = rs ∧
      (∀ v ∈ rs, (∀ n, ∀ e ∈ (u.tile n).tlb, e.meets v = false) ∧ ∀ n, ∀ e ∈ (u.die n).tlb, e.meets v = false) ∧ u.hbm = s.hbm ∧ u.keys = s.keys
    s.fromManagement m = true →
    (s.boot.good = true →
      (∀ e ∈ ([(.tenset, 1, 6), (.rngset, 2, 6), (.inval, 3, 4), (.pinq, 4, 2), (.keyload, 5, 4), (.keydrop, 6, 1), (.quota, 7, 3), (.qpset, 8, 4),
          (.lsem, 9, 3), (.status, 10, 1), (.attest, 11, 1), (.pwrq, 12, 0), (.pwrset, 13, 1), (.errq, 14, 2), (.fwload, 15, 49), (.reset, 16, 0),
          (.regset, 17, 2)] : List (Instr × Nat × Nat)),
        m.opc = e.2.1 → (m.zero = false ∨ ∃ x ∈ m.args.drop e.2.2, x ≠ 0) → exec e.1 s = .next (reply s 1 [] [])) ∧
      ((m.opc = 0 ∨ 17 < m.opc) → exec .unknownManagementOpc s = .next (reply s 1 [] [])) ∧
      (comes 1 6 → a 0 < 4096 → descOk ((rangeFrom 1 5).map a) = true →
        (a 1 % 4 = 0 → s.tenantHolds (a 0) = true → exec .tenset s = .next (reply s 2 [] [])) ∧
        ((a 1 % 4 ≠ 0 ∨ s.tenantHolds (a 0) = false) → exec .tenset s =
          .next (reply { s with descs := FMap.insert s.descs (a 0) ((rangeFrom 1 5).map fun i => BitVec.ofNat 64 (a i)) } 0 [] []))) ∧
      (comes 2 6 → a 0 ≤ 4 → a 1 < 64 → (∀ i ∈ rangeFrom 2 4, a i < 2 ^ 64) →
        let old := FMap.getD (if a 0 = 4 then s.hubRanges else (s.die (a 0)).ranges) (a 1) ({} : RangeEntry)
        let new : RangeEntry := { w0 := BitVec.ofNat 64 (a 2), base := BitVec.ofNat 64 (a 3), limit := BitVec.ofNat 64 (a 4), disp := BitVec.ofNat 64 (a 5) }
        starts .rngset 2 (old.range ++ new.range) ∧
        ∀ u, exec .rngset s = .next u → FMap.getD (if a 0 = 4 then u.hubRanges else (u.die (a 0)).ranges) (a 1) ({} : RangeEntry) = new) ∧
      (comes 3 4 → a 0 < 4096 → a 1 < 4 → a 2 + a 3 ≤ 2 ^ 39 → starts .inval 3 [(a 0, a 1, a 2, a 3)]) ∧
      (comes 4 2 → a 0 < 4 → a 1 < 4096 → exec .pinq s = .next (reply s 0 (s.pinsOf (a 0) (a 1)) [])) ∧
      (comes 5 4 → a 0 < 1024 → a 1 < 4096 → a 2 < 2 →
        ((FMap.get? s.keys (a 0)).isSome = true → exec .keyload s = .next (reply s 2 [] [])) ∧
        (FMap.get? s.keys (a 0) = none → Config.unwrappedPair (a 3) = none → exec .keyload s = .next (reply s 4 [] [])) ∧
        ∀ p, FMap.get? s.keys (a 0) = none → Config.unwrappedPair (a 3) = some p → exec .keyload s =
          .next (reply { s with keys := FMap.insert s.keys (a 0) { tenant := a 1, share := a 2 == 1, pair := p } } 0 [] [])) ∧
      (comes 6 1 → a 0 < 1024 →
        (FMap.get? s.keys (a 0) = none → exec .keydrop s = .next (reply s 0 [] [])) ∧
        ∀ k, FMap.get? s.keys (a 0) = some k → ∃ u r, exec .keydrop s = .next u ∧ u.outbox = s.outbox ∧ u.running = s.running ++ [r] ∧
          r.opc = 6 ∧ r.args = [a 0] ∧ r.tag = m.tag ∧ r.qp = m.qp ∧ u.keys = FMap.insert s.keys (a 0) { k with dropping := true }) ∧
      (comes 7 3 → a 0 < 4096 → a 1 < 8 → ∃ u, exec .quota s = .next (reply u 0 [] []) ∧ (u.switch (a 1)).quotaOf (a 0) = a 2 ∧
        (∀ w n, (w, n) ≠ (a 1, a 0) → (u.switch w).quotaOf n = (s.switch w).quotaOf n) ∧ u.outbox = s.outbox) ∧
      (comes 8 4 → a 0 < 4096 → a 1 < 4096 → a 2 < 4 → a 3 < 128 → (a 2 = 0 → a 1 = 0) → exec .qpset s =
        .next (reply { s with pairs := FMap.insert s.pairs (a 0) { tenant := a 1, cls := a 2, queue := a 3 } } 0 [] [])) ∧
      (comes 9 3 → a 0 < 4096 → a 1 < 4096 → a 2 < 2 ^ 32 → ∃ u, exec .lsem s = .next (reply u 0 [] []) ∧
        u.lsem (a 0) = { tenant := a 1, count := BitVec.ofNat 32 (a 2) } ∧ (∀ i, i ≠ a 0 → u.lsem i = s.lsem i) ∧ u.outbox = s.outbox) ∧
      (comes 10 1 → a 0 < 128 → exec .status s = .next (reply s 0 [(s.queue (a 0)).status] [])) ∧
      (comes 11 1 → a 0 < 2 ^ 256 →
        (s.boot.burnt = 1024 → exec .attest s = .next (reply s 2 [] [])) ∧
        (s.boot.burnt ≠ 1024 →
          let i := if s.boot.inBlock < 1024 then 1024 * (s.boot.burnt - 1) + s.boot.inBlock else 1024 * s.boot.burnt
          ∃ b sig, exec .attest s = .next (reply { s with boot := b } 0 [] (({ s with boot := b } : State).report i (a 0) ++ sig)) ∧
            b.burnt = (if s.boot.inBlock < 1024 then s.boot.burnt else s.boot.burnt + 1) ∧ b.flash = s.boot.flash ∧ b.running = s.boot.running)) ∧
      (comes 12 0 → exec .pwrq s = .next (reply s 0 (s.power.average :: s.power.limit ::
        ((List.range 4).map (fun d => (s.die d).clock) ++ (List.range 4).map fun d => s.power.sensors.getD d 0)) [])) ∧
      (comes 13 1 → 600 ≤ a 0 → a 0 ≤ 2400 → exec .pwrset s = .next (reply { s with power := { s.power with nextLimit := a 0 } } 0 [] [])) ∧
      (comes 14 2 → a 0 ≤ 4 → a 1 < 10 → ∃ u, let n := FMap.getD (s.die (a 0)).errors (a 1) (0, 0)
        exec .errq s = .next (reply u 0 [n.1, n.2] []) ∧ FMap.getD (u.die (a 0)).errors (a 1) (0, 0) = (0, 0) ∧ u.outbox = s.outbox) ∧
      (comes 17 2 → a 0 < 64 → (a 1 < 4 ∨ a 1 = 0xFF) → ∃ u r, exec .regset s = .next u ∧ u.outbox = s.outbox ∧ u.running = s.running ++ [r] ∧
        r.opc = 17 ∧ r.tag = m.tag ∧ r.qp = m.qp ∧ u.regPorts.toNat = a 0 ∧ u.keyDie = (if a 1 < 4 then some (a 1) else none) ∧
        ∀ d, d < 5 → (s.die d).fenced = false → (u.die d).registered = decide (d = a 1))) ∧
    (comes 15 49 → (∀ i, 1 ≤ i → i ≤ 48 → a i < 256) → ∃ u, exec .fwload s = .next (reply u 0 [] []) ∧ u.outbox = s.outbox ∧
      (∀ i, i < 48 → (u.boot.flash.byteAt (a 0 + i)).toNat = a (1 + i)) ∧
      ∀ x, x < a 0 ∨ a 0 + 48 ≤ x → u.boot.flash.byteAt x = s.boot.flash.byteAt x) ∧
    (comes 16 0 → ∃ u, exec .reset s = .next u ∧ u.outbox = (reply s 0 [] []).outbox ++ (if s.boot.start.good then [] else [{ kind := 1, dest := 0, nums := [3] }]) ∧ u.boot = s.boot.start ∧ u.tiles = State.reset.tiles ∧
      u.dies = State.reset.dies ∧ u.hbm = State.reset.hbm ∧ u.keys = State.reset.keys)) ∧
  ∀ (s : State) (r : Running),
    let done := fun (i : Instr) (status : Nat) (nums : List Nat) (holds : State → Prop) => ∃ u, exec i s = .next u ∧
      u.running = (s.running.filter fun q => q.id != r.id) ∧
      u.outbox = s.outbox ++ [{ kind := 1, dest := r.qp, nums := status :: nums, bytes := r.tag }] ∧ holds u
    (∀ opc ∈ [2, 3], r.opc = opc → (s.running.find? fun r => r.id == s.focus.id && (r.opc == 2 || r.opc == 3)) = some r →
      (∀ v ∈ r.ranges, s.rangeIdle (r.args.getD 0 0) v = true) →
      done .invalReply 0 [(r.ranges.map fun v => s.pinnedIn v).sum] fun u => ∀ v ∈ r.ranges, ∀ n, ∀ e ∈ (u.tile n).tlb, e.meets v = false) ∧
    ((s.running.find? fun r => r.id == s.focus.id && r.opc == 6) = some r → s.slotUsed (r.args.getD 0 0) = false →
      done .keydropReply 0 [] fun u => FMap.get? u.keys (r.args.getD 0 0) = none ∧
        ∀ w n, (u.sheet w n).key = r.args.getD 0 0 → (u.sheet w n).live = true → (u.sheet w n).hasPair = false) ∧
    ((s.running.find? fun r => r.id == s.focus.id && r.opc == 0x11) = some r →
      (s.allRegistered = true → done .regsetReply 0 [] fun u => u.regPorts = s.regPorts) ∧
      (s.allRegistered = false → r.since + 16777216 ≤ (s.die 4).tick → done .regsetReply 3 [] fun u => u.regPorts = s.regPorts))

/-- 02 R49. -/
def Obligations.NopSlots : Prop :=
  (∀ k, decodeSlot k 0 = .ok (match k with | .f => .nopF | .c => .nopC | _ => .nop)) ∧
  (∀ e ∈ ([(.s, 128), (.l, 64), (.v, 256), (.m, 32), (.x, 64), (.f, 16), (.c, 64)] : List (SlotKind × Nat)),
    ∀ w, w % e.2 = 0 → w ≠ 0 → decodeSlot e.1 w = .error .illegalField) ∧
  (∀ i ∈ ([.nop, .nopF, .nopC] : List Instr), ∀ s, Opens s → Unhindered s [] [] → ∃ t, exec i s = .next t ∧ Issued s t []) ∧
  ∀ (s : State) (t c next : Nat) (lit : Bool) (is : Issue) (ops : List Op),
    fetch (s.tile t) (s.ctx t c) = .bundle 0 next lit → s.attempt t c = .run is ops → (s.ctx t c).overdue false = none → (s.open is).fenceFails = [] →
    ∃ u, s.issueCtx t c = .next u ∧ Went (s.open is) u [] next false ∧ (u.tile t).heldAt = some (s.tickOf t)

/-- 02 R31; 13 R358, R359; 09 R234 (the last clause: held registers). -/
def Obligations.RegionHeader : Prop :=
  (∀ (h : Header) (ops : List Op), h.rgn = true → (issueOrder h ops).head? = some ⟨0, .regionOpen, 0⟩) ∧
  ∀ s : State,
    let k := s.cur
    let exposed := ∃ l ∈ k.inflight, l.dest.key ≠ none ∧ match l.nominal with | some n => s.now < n | none => l.free = false
    (Opens s → Unhindered s [] [] →
      (¬exposed → k.lockLeft = none → k.heldAt s.now = [] → ∃ t, exec .regionOpen s = .next t ∧
        Went (s.modCur fun k => { k with check := { pc := s.issue.pc, rbase := k.rbase, loops := k.loops, links := k.links }, regionTimer := 0
                                         nonRepeatable := false, regionNo := k.regionNo + 1 }) t [] s.issue.nextPc false) ∧
      (exposed → ∃ t, exec .regionOpen s = .next t ∧ Trapped s t 0x05 0) ∧
      (¬exposed → k.lockLeft = none → k.heldAt s.now ≠ [] → k.inFtr = false → ∃ t, exec .regionOpen s = .next t ∧ Held s t .matrixBusy)) ∧
    (s.issue.mode = .judge → exposed → ∃ t fs, exec .regionOpen s = .next t ∧ t.issue.fails = s.issue.fails ++ fs ∧
      fs.map (fun x => (x.phase, x.slot, x.kind)) = [(5, s.issue.slot, .trap .precise 0x05 0 0)])

/-- 02 R24 to R28, R46, R50; 11 R294. That a step is one event or one bundle, and their order, is the model's choice (log 4); so is which row
of the table a shared word runs (log 72). -/
def Obligations.StepRunsDecoded : Prop :=
  ∀ s : State,
    (∀ j rest, s.agenda = j :: rest → step s = exec j.instr { s with agenda := rest, focus := j.focus }) ∧
    ∀ lo t c w next lit, s.agenda = [] → s.stage = .issue lo → s.nextTile lo = some t →
      let u := (s.survey t).1
      let ready := (s.survey t).2
      let x := u.tile t
      let k := x.ctx c
      (x.exclusive.isNone && x.quantumOver (u.tickOf t) ready (u.opensRegion t x.lastCtx)) = false → x.select (u.tickOf t) ready = some c →
      x.live c = true → k.stands = true → (k.pendingFaults = [] ∨ k.trapcause ≠ 0) → (k.pendingStep = false ∨ k.trapcause ≠ 0) → (k.inFtr = false ∨ k.ftrTimer ≤ k.ftrmax.toNat) →
      fetch x k = .bundle w next lit → (lit = true → k.literalPaid = true) → (w % 2 = 0 ∨ k.preempt = none) →
      (k.regionTimer ≤ k.regionmax.toNat ∨ w % 2 = 1 ∨ k.trapcause ≠ 0) → (decodeBundle w).2 = [] →
      let ops := (decodeBundle w).1
      let h := Header.ofWord (w % 2 ^ 64)
      let at' := ({ u with stage := .issue (t + 1) } : State).open (openIssue t c k w next (ops.filter fun o => !isNop o.instr).length)
      (ops.map fun o => (o.slot, o.word, (Except.ok o.instr : Except DecodeError Instr))) =
        (slotPlaces.map fun p => (p.num, p.word w, decodeSlot p.kind (p.word w))) ∧
      step s = runBundle (issueOrder h ops) at' ∧
      ∀ o ∈ ops, isNop o.instr = false → (∀ q ∈ ops, isNop q.instr = false → q = o) → h.rgn = false → h.blk = false →
        step s = exec (resolve at' o.instr) (at'.atOp o.slot .whole)

/-- 02 Tables 2.22 to 2.24; 05 Table 5.5; 13 Table 13.2; 15 Table 15.11; 16 Table 16.2, and the worked encodings of 04, 06, 07, 11, 14, 15. -/
def Obligations.SampleEncodings : Prop :=
  decodeSlot .s 0x000C070201 = .ok (.add { d := 4, sa := 0, sb := 7, g := 0, gn := 0, imm := 12 }) ∧
  decodeSlot .s 0x0000110382 = .ok (.sub { d := 7, sa := 0, sb := 1, g := 2, gn := 0, imm := 0 }) ∧
  decodeSlot .s 0x00200003D1 = .ok (.csrw { d := 7, sa := 0, sb := 0, g := 0, gn := 0, imm := 0x20 }) ∧
  decodeSlot .s 0xBEEF006641 = .ok (.movk { d := 12, sa := 3, sb := 0, g := 0, gn := 0, imm := 0xBEEF }) ∧
  decodeSlot .l 0x0100000187 = .ok (.ld64 { t := 6, sa := 0, sb := 0, sc := 0, g := 0, gn := 0, off := 64 }) ∧
  decodeSlot .l 0x002000800D = .ok (.st64 { t := 0, sa := 0, sb := 1, sc := 0, g := 0, gn := 0, off := 8 }) ∧
  decodeSlot .v 0x0000000034C2CA12 = .ok (.vfmaF32
    { vd := 10, va := 11, vb := 12, vc := 13, mkr := 0, me := 0, mz := 0, rm := 0, ss := 0, sd := 0, vs := 0, imm := 0 }) ∧
  decodeSlot .v 0x00040139A80A6813 = .ok (.vfmaF16
    { vd := 40, va := 41, vb := 0, vc := 42, mkr := 9, me := 1, mz := 1, rm := 4, ss := 0, sd := 0, vs := 1, imm := 0 }) ∧
  decodeSlot .v 0x0000001100124D66 = .ok (.vperm
    { vd := 13, va := 9, vb := 1, vc := 0, mkr := 1, me := 1, mz := 0, rm := 0, ss := 0, sd := 0, vs := 0, imm := 0 }) ∧
  decodeSlot .m 0x0000208004 = .ok (.streamOvw { sy := 0, sa := 0, sb := 0, os := 1, ot := 1, ar := 0 }) ∧
  decodeSlot .x 0x0000822141 = .ok (.copy { sy := 5, sa := 0, sb := 1, sc := 2, sd := 0, ch := 2, sco := 0, ord := 0, td := 0 }) ∧
  decodeSlot .x 0x0000022044 = .ok (.get { sy := 1, sa := 0, sb := 1, sc := 2, sd := 0, ch := 0, sco := 0, ord := 0, td := 0 }) ∧
  decodeSlot .x 0x0388562014 = .ok (.smldAcq { sy := 0, sa := 0, sb := 1, sc := 6, sd := 2, ch := 1, sco := 4, ord := 0, td := 14 }) ∧
  decodeSlot .x 0x00001A20A0 = .ok (.burnishUpdate { sy := 2, sa := 0, sb := 1, sc := 2, sd := 3, ch := 0, sco := 0, ord := 0, td := 0 }) ∧
  decodeSlot .f 0xFF1204 = .ok (.recvaddAcc { sy := 0, pt := 2, sa := 1, sb := 6, n := 63 }) ∧
  decodeSlot .c 0x00000019 = .ok (.yield { sa := 0, sb := 0, p := 0, imm := 0 }) ∧
  decodeSlot .c 0x12340030 = .ok (.trap { sa := 0, sb := 0, p := 0, imm := 0x1234 }) ∧
  decodeSlot .c 0x00050033 = .ok (.park { sa := 0, sb := 0, p := 0, imm := 5 }) ∧
  decodeSlot .c 0x00000C34 = .ok (.unparkReturn { sa := 0, sb := 6, p := 0, imm := 0 }) ∧
  decodeSlot .c 0xFFF91002 = .ok (.brpT { sa := 0, sb := 0, p := 1, imm := 0xFFF9 }) ∧
  decodeSlot .c 0x000006A0 = .ok (.align { sa := 2, sb := 3, p := 0, imm := 0 }) ∧
  decodeSlot .c 0x01050212 = .ok (.phregSig { sa := 0, sb := 1, p := 0, imm := 0x105 })

/-- 02 R30, R42 to R45, R47, R49, R51, Tables 2.5 to 2.18. Which row a shared word decodes to is the model's choice (log 72). -/
def Obligations.EncodingsRoundTrip : Prop :=
  (∀ (i : Instr) (k : SlotKind) (w : Nat), i.wf = true → encode i = some (k, w) → w < 2 ^ k.width ∧ decodeSlot k w = .ok (decodesTo i)) ∧
  ∀ (i : Instr) (k : SlotKind) (w : Nat), w < 2 ^ k.width → decodeSlot k w = .ok i → i.wf = true ∧ (encode i = some (k, w) ∨ w = 0)

/-- 13 R342: every exception is a next state; the canonical form is the model's choice of log 2. -/
def Obligations.MemoryStaysCanonical : Prop :=
  ∀ s : State, s.memoriesWf = true → ∃ t, step s = .next t ∧ t.memoriesWf = true

/-- 04 R90, R94; 07 R170; 10 R248, R250, R264; 11 R292, R294; 12 R329; 13 R352; 17 R387, R391. -/
def Obligations.ResetState : Prop :=
  let s := State.reset
  s.memoriesWf = true ∧
  (∀ t, let x := s.tile t
    x.owner = none ∧ (∀ c, x.live c = false) ∧ x.set0.valid = false ∧ x.set1.valid = false ∧ (∀ k, FMap.getD x.anchors k 0 = 0) ∧ x.claims = [] ∧
      (∀ p, FMap.getD x.fifos p [] = []) ∧ x.mq = [] ∧ x.xq = [] ∧ x.fq = [] ∧ x.lastCtx = 3) ∧
  (∀ d, let x := s.die d
    x.tick = 0 ∧ (∀ p, FMap.getD x.linklat p 0 = 0) ∧ (∀ e, FMap.get? x.recipes e = none) ∧ x.seq = 1 ∧
      ∀ a, x.wstore.byteAt a = 0 ∧ x.wstore.poisonAt a = false) ∧
  (∀ a, s.hbm.poisonAt a = false) ∧ s.master = 0 ∧ s.keyDie = some 0 ∧ s.power.limit = 2400 ∧ (∀ k, FMap.get? s.keys k = none) ∧ s.launches = []
end

