-- ==== Sys2Proof/Laws/FMap.lean ====
section
/-! SUPPORT. Lemmas of the finite maps: reading after writing, and the canonical order. -/

namespace Sys2Proof.Machine.FMap

variable {α : Type}

@[simp] theorem get?_nil (i : Nat) : get? ([] : FMap α) i = none := rfl

theorem get?_cons (k : Nat) (v : α) (m : FMap α) (i : Nat) :
    get? ((k, v) :: m : FMap α) i = if k = i then some v else get? m i := rfl

theorem get?_insert (m : FMap α) (i j : Nat) (a : α) : get? (insert m i a) j = if i = j then some a else get? m j := by
  induction m with
  | nil => rfl
  | cons e m ih =>
    obtain ⟨k, v⟩ := e
    unfold insert
    split
    · simp [get?_cons]
    · split
      · next h => subst h; simp only [get?_cons]; split <;> rfl
      · rw [get?_cons, ih, get?_cons]
        by_cases h : k = j
        · have : ¬i = j := by omega
          simp [h, this]
        · simp [h]

theorem get?_erase (m : FMap α) (i j : Nat) : get? (erase m i) j = if i = j then none else get? m j := by
  induction m with
  | nil => simp [erase]
  | cons e m ih =>
    obtain ⟨k, v⟩ := e
    by_cases h : k = i
    · subst h
      simp only [erase, if_true, ih, get?_cons]
      split <;> rfl
    · simp only [erase, h, if_false, get?_cons, ih]
      split
      · next h' => subst h'; simp [Ne.symm h]
      · rfl

theorem getD_insert (m : FMap α) (i j : Nat) (a d : α) : getD (insert m i a) j d = if i = j then a else getD m j d := by
  unfold getD
  rw [get?_insert]
  split <;> rfl

theorem getD_erase (m : FMap α) (i j : Nat) (d : α) : getD (erase m i) j d = if i = j then d else getD m j d := by
  unfold getD
  rw [get?_erase]
  split <;> rfl

@[simp] theorem getD_insert_same (m : FMap α) (i : Nat) (a d : α) : getD (insert m i a) i d = a := by simp [getD_insert]
@[simp] theorem get?_insert_same (m : FMap α) (i : Nat) (a : α) : get? (insert m i a) i = some a := by simp [get?_insert]

theorem getD_insert_other (m : FMap α) {i j : Nat} (a d : α) (h : j ≠ i) : getD (insert m i a) j d = getD m j d := by
  simp [getD_insert, Ne.symm h]
theorem get?_insert_other (m : FMap α) {i j : Nat} (a : α) (h : j ≠ i) : get? (insert m i a) j = get? m j := by
  simp [get?_insert, Ne.symm h]

/-- A later insertion at a key replaces an earlier one. -/
@[simp] theorem insert_insert (m : FMap α) (i : Nat) (a b : α) : insert (insert m i a) i b = insert m i b := by
  induction m with
  | nil => simp [insert]
  | cons e m ih =>
    obtain ⟨k, v⟩ := e
    by_cases h1 : i < k
    · simp [insert, h1]
    · by_cases h2 : i = k
      · simp [insert, h2]
      · simp [insert, h1, h2, ih]

theorem getD_setD [DecidableEq α] (m : FMap α) (i j : Nat) (a d : α) :
    getD (setD m i a d) j d = if i = j then a else getD m j d := by
  unfold setD
  split
  · next h => subst h; exact getD_erase m i j a
  · exact getD_insert m i j a d

@[simp] theorem getD_setD_same [DecidableEq α] (m : FMap α) (i : Nat) (a d : α) : getD (setD m i a d) i d = a := by
  simp [getD_setD]

theorem getD_setD_other [DecidableEq α] (m : FMap α) {i j : Nat} (a d : α) (h : j ≠ i) :
    getD (setD m i a d) j d = getD m j d := by simp [getD_setD, Ne.symm h]

/-! ### The canonical order -/

/-- Every key of a map is above a bound. -/
def above (b : Nat) (m : FMap α) : Prop := ∀ e ∈ m, b < e.1

theorem sorted_cons_iff (e : Nat × α) (m : FMap α) : sorted (e :: m) = true ↔ above e.1 m ∧ sorted m = true := by
  induction m generalizing e with
  | nil => simp [sorted, above]
  | cons b m ih =>
    simp only [sorted, Bool.and_eq_true, decide_eq_true_eq]
    constructor
    · rintro ⟨h, hs⟩
      refine ⟨?_, hs⟩
      intro x hx
      rcases List.mem_cons.mp hx with rfl | hx
      · exact h
      · exact Nat.lt_trans h (((ih b).mp hs).1 x hx)
    · rintro ⟨h, hs⟩
      exact ⟨h b (by simp), hs⟩

theorem above_insert {b i : Nat} {m : FMap α} (a : α) (h : above b m) (hi : b < i) : above b (insert m i a) := by
  induction m with
  | nil => simpa [insert, above] using hi
  | cons e m ih =>
    obtain ⟨k, v⟩ := e
    have hm : above b m := fun x hx => h x (by simp [hx])
    unfold insert
    split
    · intro x hx
      rcases List.mem_cons.mp hx with rfl | hx
      · exact hi
      · exact h x hx
    · split
      · intro x hx
        rcases List.mem_cons.mp hx with rfl | hx
        · exact hi
        · exact hm x hx
      · intro x hx
        rcases List.mem_cons.mp hx with rfl | hx
        · exact h (k, v) (by simp)
        · exact ih hm x hx

theorem sorted_insert {m : FMap α} (i : Nat) (a : α) (h : sorted m = true) : sorted (insert m i a) = true := by
  induction m with
  | nil => rfl
  | cons e m ih =>
    obtain ⟨k, v⟩ := e
    obtain ⟨h1, h2⟩ := (sorted_cons_iff _ _).mp h
    unfold insert
    split
    · next hlt =>
      refine (sorted_cons_iff _ _).mpr ⟨?_, h⟩
      intro x hx
      rcases List.mem_cons.mp hx with rfl | hx
      · exact hlt
      · exact Nat.lt_trans hlt (h1 x hx)
    · split
      · next heq => subst heq; exact (sorted_cons_iff _ _).mpr ⟨h1, h2⟩
      · exact (sorted_cons_iff _ _).mpr ⟨above_insert a h1 (by omega), ih h2⟩

theorem mem_of_mem_erase {m : FMap α} {i : Nat} {x : Nat × α} (h : x ∈ erase m i) : x ∈ m := by
  induction m with
  | nil => simp [erase] at h
  | cons e m ih =>
    obtain ⟨k, v⟩ := e
    unfold erase at h
    split at h
    · exact List.mem_cons_of_mem _ (ih h)
    · rcases List.mem_cons.mp h with rfl | h
      · simp
      · exact List.mem_cons_of_mem _ (ih h)

theorem sorted_erase {m : FMap α} (i : Nat) (h : sorted m = true) : sorted (erase m i) = true := by
  induction m with
  | nil => rfl
  | cons e m ih =>
    obtain ⟨k, v⟩ := e
    obtain ⟨h1, h2⟩ := (sorted_cons_iff _ _).mp h
    unfold erase
    split
    · exact ih h2
    · exact (sorted_cons_iff _ _).mpr ⟨fun x hx => h1 x (mem_of_mem_erase hx), ih h2⟩

theorem mem_insert {m : FMap α} {i : Nat} {a : α} {x : Nat × α} (h : x ∈ insert m i a) : x = (i, a) ∨ x ∈ m := by
  induction m with
  | nil => simpa [insert] using h
  | cons e m ih =>
    obtain ⟨k, v⟩ := e
    unfold insert at h
    split at h
    · rcases List.mem_cons.mp h with rfl | h
      · exact .inl rfl
      · exact .inr h
    · split at h
      · rcases List.mem_cons.mp h with rfl | h
        · exact .inl rfl
        · exact .inr (List.mem_cons_of_mem _ h)
      · rcases List.mem_cons.mp h with rfl | h
        · exact .inr (by simp)
        · rcases ih h with rfl | h
          · exact .inl rfl
          · exact .inr (List.mem_cons_of_mem _ h)

theorem mem_setD [DecidableEq α] {m : FMap α} {i : Nat} {a d : α} {x : Nat × α} (h : x ∈ setD m i a d) :
    (x = (i, a) ∧ a ≠ d) ∨ x ∈ m := by
  unfold setD at h
  split at h
  · exact .inr (mem_of_mem_erase h)
  · next hne => exact (mem_insert h).imp (fun e => ⟨e, hne⟩) id

theorem sorted_setD [DecidableEq α] {m : FMap α} (i : Nat) (a d : α) (h : sorted m = true) : sorted (setD m i a d) = true := by
  unfold setD
  split
  · exact sorted_erase i h
  · exact sorted_insert i a h

/-- What a lookup finds is listed. -/
theorem mem_of_get? {m : FMap α} {i : Nat} {a : α} (h : get? m i = some a) : (i, a) ∈ m := by
  induction m with
  | nil => simp at h
  | cons e m ih =>
    obtain ⟨k, v⟩ := e
    rw [get?_cons] at h
    split at h
    · next hk => subst hk; simp [← Option.some.inj h]
    · exact List.mem_cons_of_mem _ (ih h)

/-- A property of what is listed, and of the default, holds of what a lookup gives. -/
theorem getD_of_all {P : α → Prop} {m : FMap α} {d : α} (i : Nat) (hd : P d) (h : ∀ e ∈ m, P e.2) : P (getD m i d) := by
  unfold getD
  cases he : get? m i with
  | none => exact hd
  | some a => exact h _ (mem_of_get? he)

end Sys2Proof.Machine.FMap
end

