-- ==== Sys2Proof/Laws/State.lean ====
section
/-! SUPPORT. Lemmas of the state: what each named update leaves alone, field by field, and what a read after it gives. -/

namespace Sys2Proof.Machine

/-! ### Reads after updates -/

theorem State.tile_setTile (s : State) (t u : Nat) (x : Tile) : (s.setTile t x).tile u = if t = u then x else s.tile u :=
  FMap.getD_insert ..

@[simp] theorem State.tile_setTile_same (s : State) (t : Nat) (x : Tile) : (s.setTile t x).tile t = x := by
  simp [State.tile_setTile]
@[simp] theorem State.tile_modTile_same (s : State) (t : Nat) (f : Tile → Tile) : (s.modTile t f).tile t = f (s.tile t) := by
  simp [State.modTile]
theorem State.tile_modTile_other (s : State) {t u : Nat} (f : Tile → Tile) (h : u ≠ t) : (s.modTile t f).tile u = s.tile u := by
  simp [State.modTile, State.tile_setTile, Ne.symm h]

theorem Tile.ctx_setCtx (x : Tile) (c d : Nat) (k : Ctx) : (x.setCtx c k).ctx d = if c = d then k else x.ctx d :=
  FMap.getD_insert ..
@[simp] theorem Tile.ctx_setCtx_same (x : Tile) (c : Nat) (k : Ctx) : (x.setCtx c k).ctx c = k := by simp [Tile.ctx_setCtx]
theorem Tile.ctx_setCtx_other (x : Tile) {c d : Nat} (k : Ctx) (h : d ≠ c) : (x.setCtx c k).ctx d = x.ctx d := by
  simp [Tile.ctx_setCtx, Ne.symm h]

@[simp] theorem State.tile_setCtx_same (s : State) (t c : Nat) (k : Ctx) : (s.setCtx t c k).tile t = (s.tile t).setCtx c k := by
  simp [State.setCtx]
@[simp] theorem State.tile_modCtx_same (s : State) (t c : Nat) (f : Ctx → Ctx) :
    (s.modCtx t c f).tile t = (s.tile t).setCtx c (f (s.ctx t c)) := by simp [State.modCtx]
theorem State.tile_setCtx_other (s : State) {t u : Nat} (c : Nat) (k : Ctx) (h : u ≠ t) : (s.setCtx t c k).tile u = s.tile u :=
  s.tile_modTile_other _ h
theorem State.tile_modCtx_other (s : State) {t u : Nat} (c : Nat) (f : Ctx → Ctx) (h : u ≠ t) : (s.modCtx t c f).tile u = s.tile u :=
  s.tile_modTile_other _ h

@[simp] theorem State.ctx_modCtx_same (s : State) (t c : Nat) (f : Ctx → Ctx) : (s.modCtx t c f).ctx t c = f (s.ctx t c) := by
  simp [State.ctx]
@[simp] theorem State.ctx_setCtx_same (s : State) (t c : Nat) (k : Ctx) : (s.setCtx t c k).ctx t c = k := by simp [State.ctx]
theorem State.ctx_modCtx_other (s : State) (t : Nat) {c d : Nat} (f : Ctx → Ctx) (h : d ≠ c) : (s.modCtx t c f).ctx t d = s.ctx t d := by
  simp [State.ctx, Tile.ctx_setCtx_other _ _ h]
theorem State.ctx_modCtx_otherTile (s : State) {t u : Nat} (c d : Nat) (f : Ctx → Ctx) (h : u ≠ t) :
    (s.modCtx t c f).ctx u d = s.ctx u d := by simp [State.ctx, State.tile_modCtx_other s c f h]

@[simp] theorem State.cur_modCur (s : State) (f : Ctx → Ctx) : (s.modCur f).cur = f s.cur := by
  simp [State.cur, State.modCur, State.modCtx, State.setCtx, State.modTile, State.setTile, State.ctx, State.tile]
@[simp] theorem State.curTile_modCurTile (s : State) (f : Tile → Tile) : (s.modCurTile f).curTile = f s.curTile := by
  simp [State.curTile, State.modCurTile, State.modTile, State.setTile, State.tile]

theorem State.die_modDie (s : State) (d e : Nat) (f : Die → Die) : (s.modDie d f).die e = if d = e then f (s.die d) else s.die e :=
  FMap.getD_insert ..
@[simp] theorem State.die_modDie_same (s : State) (d : Nat) (f : Die → Die) : (s.modDie d f).die d = f (s.die d) := by
  simp [State.die_modDie]
theorem State.die_modDie_other (s : State) {d e : Nat} (f : Die → Die) (h : e ≠ d) : (s.modDie d f).die e = s.die e := by
  simp [State.die_modDie, Ne.symm h]

/-! ### What follows from the fields an update leaves alone -/

theorem State.tile_of_tiles {s s' : State} (h : s'.tiles = s.tiles) (t : Nat) : s'.tile t = s.tile t := by simp [State.tile, h]
theorem State.die_of_dies {s s' : State} (h : s'.dies = s.dies) (d : Nat) : s'.die d = s.die d := by simp [State.die, h]
theorem State.tickOf_of_dies {s s' : State} (h : s'.dies = s.dies) (t : Nat) : s'.tickOf t = s.tickOf t := by
  simp [State.tickOf, State.die, h]

@[simp] theorem State.tile_modIssue (s : State) (f : Issue → Issue) (t : Nat) : (s.modIssue f).tile t = s.tile t := rfl
@[simp] theorem State.ctx_modIssue (s : State) (f : Issue → Issue) (t c : Nat) : (s.modIssue f).ctx t c = s.ctx t c := rfl
@[simp] theorem State.tile_bump (s : State) (t : Nat) : s.bump.tile t = s.tile t := rfl
@[simp] theorem State.ctx_bump (s : State) (t c : Nat) : s.bump.ctx t c = s.ctx t c := rfl
@[simp] theorem State.cur_bump (s : State) : s.bump.cur = s.cur := rfl
@[simp] theorem State.now_bump (s : State) : s.bump.now = s.now := rfl
@[simp] theorem State.tile_modDie (s : State) (d : Nat) (f : Die → Die) (t : Nat) : (s.modDie d f).tile t = s.tile t := rfl
@[simp] theorem State.now_modCur (s : State) (f : Ctx → Ctx) : (s.modCur f).now = s.now := rfl
@[simp] theorem State.now_modCurTile (s : State) (f : Tile → Tile) : (s.modCurTile f).now = s.now := rfl
@[simp] theorem State.tickOf_modTile (s : State) (t u : Nat) (f : Tile → Tile) : (s.modTile t f).tickOf u = s.tickOf u := rfl
@[simp] theorem State.tickOf_modCtx (s : State) (t c u : Nat) (f : Ctx → Ctx) : (s.modCtx t c f).tickOf u = s.tickOf u := rfl
@[simp] theorem State.die_modTile (s : State) (t d : Nat) (f : Tile → Tile) : (s.modTile t f).die d = s.die d := rfl
@[simp] theorem State.die_modCtx (s : State) (t c d : Nat) (f : Ctx → Ctx) : (s.modCtx t c f).die d = s.die d := rfl
@[simp] theorem State.die_bump (s : State) (d : Nat) : s.bump.die d = s.die d := rfl

@[simp] theorem State.bump_nextId (s : State) : s.bump.nextId = s.nextId + 1 := rfl

/-- A change of the issuing tile that keeps its contexts keeps the context in issue. -/
theorem State.cur_modCurTile {s : State} {f : Tile → Tile} (h : (f s.curTile).ctx s.issue.ctx = s.cur) : (s.modCurTile f).cur = s.cur := by
  rw [State.cur, State.ctx]
  exact (congrArg (fun x => Tile.ctx x s.issue.ctx) (s.curTile_modCurTile f)).trans h

/-! ### Fields -/

/-! #### setTile -/

@[simp] theorem State.setTile_dies (s : State) (t : Nat) (x : Tile) : (s.setTile t x).dies = s.dies := rfl
@[simp] theorem State.setTile_hbm (s : State) (t : Nat) (x : Tile) : (s.setTile t x).hbm = s.hbm := rfl
@[simp] theorem State.setTile_hbmPair (s : State) (t : Nat) (x : Tile) : (s.setTile t x).hbmPair = s.hbmPair := rfl
@[simp] theorem State.setTile_descs (s : State) (t : Nat) (x : Tile) : (s.setTile t x).descs = s.descs := rfl
@[simp] theorem State.setTile_keys (s : State) (t : Nat) (x : Tile) : (s.setTile t x).keys = s.keys := rfl
@[simp] theorem State.setTile_switches (s : State) (t : Nat) (x : Tile) : (s.setTile t x).switches = s.switches := rfl
@[simp] theorem State.setTile_hubRanges (s : State) (t : Nat) (x : Tile) : (s.setTile t x).hubRanges = s.hubRanges := rfl
@[simp] theorem State.setTile_saved (s : State) (t : Nat) (x : Tile) : (s.setTile t x).saved = s.saved := rfl
@[simp] theorem State.setTile_mesh (s : State) (t : Nat) (x : Tile) : (s.setTile t x).mesh = s.mesh := rfl
@[simp] theorem State.setTile_inbound (s : State) (t : Nat) (x : Tile) : (s.setTile t x).inbound = s.inbound := rfl
@[simp] theorem State.setTile_air (s : State) (t : Nat) (x : Tile) : (s.setTile t x).air = s.air := rfl
@[simp] theorem State.setTile_phasers (s : State) (t : Nat) (x : Tile) : (s.setTile t x).phasers = s.phasers := rfl
@[simp] theorem State.setTile_moving (s : State) (t : Nat) (x : Tile) : (s.setTile t x).moving = s.moving := rfl
@[simp] theorem State.setTile_scrubs (s : State) (t : Nat) (x : Tile) : (s.setTile t x).scrubs = s.scrubs := rfl
@[simp] theorem State.setTile_keyDie (s : State) (t : Nat) (x : Tile) : (s.setTile t x).keyDie = s.keyDie := rfl
@[simp] theorem State.setTile_regPorts (s : State) (t : Nat) (x : Tile) : (s.setTile t x).regPorts = s.regPorts := rfl
@[simp] theorem State.setTile_farPorts (s : State) (t : Nat) (x : Tile) : (s.setTile t x).farPorts = s.farPorts := rfl
@[simp] theorem State.setTile_apart (s : State) (t : Nat) (x : Tile) : (s.setTile t x).apart = s.apart := rfl
@[simp] theorem State.setTile_replays (s : State) (t : Nat) (x : Tile) : (s.setTile t x).replays = s.replays := rfl
@[simp] theorem State.setTile_loopback (s : State) (t : Nat) (x : Tile) : (s.setTile t x).loopback = s.loopback := rfl
@[simp] theorem State.setTile_beacons (s : State) (t : Nat) (x : Tile) : (s.setTile t x).beacons = s.beacons := rfl
@[simp] theorem State.setTile_pairs (s : State) (t : Nat) (x : Tile) : (s.setTile t x).pairs = s.pairs := rfl
@[simp] theorem State.setTile_queues (s : State) (t : Nat) (x : Tile) : (s.setTile t x).queues = s.queues := rfl
@[simp] theorem State.setTile_lastQueues (s : State) (t : Nat) (x : Tile) : (s.setTile t x).lastQueues = s.lastQueues := rfl
@[simp] theorem State.setTile_firedAt (s : State) (t : Nat) (x : Tile) : (s.setTile t x).firedAt = s.firedAt := rfl
@[simp] theorem State.setTile_lsems (s : State) (t : Nat) (x : Tile) : (s.setTile t x).lsems = s.lsems := rfl
@[simp] theorem State.setTile_launches (s : State) (t : Nat) (x : Tile) : (s.setTile t x).launches = s.launches := rfl
@[simp] theorem State.setTile_master (s : State) (t : Nat) (x : Tile) : (s.setTile t x).master = s.master := rfl
@[simp] theorem State.setTile_outbox (s : State) (t : Nat) (x : Tile) : (s.setTile t x).outbox = s.outbox := rfl
@[simp] theorem State.setTile_messages (s : State) (t : Nat) (x : Tile) : (s.setTile t x).messages = s.messages := rfl
@[simp] theorem State.setTile_running (s : State) (t : Nat) (x : Tile) : (s.setTile t x).running = s.running := rfl
@[simp] theorem State.setTile_dropped (s : State) (t : Nat) (x : Tile) : (s.setTile t x).dropped = s.dropped := rfl
@[simp] theorem State.setTile_power (s : State) (t : Nat) (x : Tile) : (s.setTile t x).power = s.power := rfl
@[simp] theorem State.setTile_boot (s : State) (t : Nat) (x : Tile) : (s.setTile t x).boot = s.boot := rfl
@[simp] theorem State.setTile_places (s : State) (t : Nat) (x : Tile) : (s.setTile t x).places = s.places := rfl
@[simp] theorem State.setTile_stage (s : State) (t : Nat) (x : Tile) : (s.setTile t x).stage = s.stage := rfl
@[simp] theorem State.setTile_turn (s : State) (t : Nat) (x : Tile) : (s.setTile t x).turn = s.turn := rfl
@[simp] theorem State.setTile_agenda (s : State) (t : Nat) (x : Tile) : (s.setTile t x).agenda = s.agenda := rfl
@[simp] theorem State.setTile_inbox (s : State) (t : Nat) (x : Tile) : (s.setTile t x).inbox = s.inbox := rfl
@[simp] theorem State.setTile_focus (s : State) (t : Nat) (x : Tile) : (s.setTile t x).focus = s.focus := rfl
@[simp] theorem State.setTile_issue (s : State) (t : Nat) (x : Tile) : (s.setTile t x).issue = s.issue := rfl
@[simp] theorem State.setTile_free (s : State) (t : Nat) (x : Tile) : (s.setTile t x).free = s.free := rfl
@[simp] theorem State.setTile_nextId (s : State) (t : Nat) (x : Tile) : (s.setTile t x).nextId = s.nextId := rfl
@[simp] theorem State.setTile_torusX (s : State) (t : Nat) (x : Tile) : (s.setTile t x).torusX = s.torusX := rfl
@[simp] theorem State.setTile_torusY (s : State) (t : Nat) (x : Tile) : (s.setTile t x).torusY = s.torusY := rfl
@[simp] theorem State.setTile_torusZ (s : State) (t : Nat) (x : Tile) : (s.setTile t x).torusZ = s.torusZ := rfl

/-! #### modTile -/

@[simp] theorem State.modTile_dies (s : State) (t : Nat) (f : Tile → Tile) : (s.modTile t f).dies = s.dies := rfl
@[simp] theorem State.modTile_hbm (s : State) (t : Nat) (f : Tile → Tile) : (s.modTile t f).hbm = s.hbm := rfl
@[simp] theorem State.modTile_hbmPair (s : State) (t : Nat) (f : Tile → Tile) : (s.modTile t f).hbmPair = s.hbmPair := rfl
@[simp] theorem State.modTile_descs (s : State) (t : Nat) (f : Tile → Tile) : (s.modTile t f).descs = s.descs := rfl
@[simp] theorem State.modTile_keys (s : State) (t : Nat) (f : Tile → Tile) : (s.modTile t f).keys = s.keys := rfl
@[simp] theorem State.modTile_switches (s : State) (t : Nat) (f : Tile → Tile) : (s.modTile t f).switches = s.switches := rfl
@[simp] theorem State.modTile_hubRanges (s : State) (t : Nat) (f : Tile → Tile) : (s.modTile t f).hubRanges = s.hubRanges := rfl
@[simp] theorem State.modTile_saved (s : State) (t : Nat) (f : Tile → Tile) : (s.modTile t f).saved = s.saved := rfl
@[simp] theorem State.modTile_mesh (s : State) (t : Nat) (f : Tile → Tile) : (s.modTile t f).mesh = s.mesh := rfl
@[simp] theorem State.modTile_inbound (s : State) (t : Nat) (f : Tile → Tile) : (s.modTile t f).inbound = s.inbound := rfl
@[simp] theorem State.modTile_air (s : State) (t : Nat) (f : Tile → Tile) : (s.modTile t f).air = s.air := rfl
@[simp] theorem State.modTile_phasers (s : State) (t : Nat) (f : Tile → Tile) : (s.modTile t f).phasers = s.phasers := rfl
@[simp] theorem State.modTile_moving (s : State) (t : Nat) (f : Tile → Tile) : (s.modTile t f).moving = s.moving := rfl
@[simp] theorem State.modTile_scrubs (s : State) (t : Nat) (f : Tile → Tile) : (s.modTile t f).scrubs = s.scrubs := rfl
@[simp] theorem State.modTile_keyDie (s : State) (t : Nat) (f : Tile → Tile) : (s.modTile t f).keyDie = s.keyDie := rfl
@[simp] theorem State.modTile_regPorts (s : State) (t : Nat) (f : Tile → Tile) : (s.modTile t f).regPorts = s.regPorts := rfl
@[simp] theorem State.modTile_farPorts (s : State) (t : Nat) (f : Tile → Tile) : (s.modTile t f).farPorts = s.farPorts := rfl
@[simp] theorem State.modTile_apart (s : State) (t : Nat) (f : Tile → Tile) : (s.modTile t f).apart = s.apart := rfl
@[simp] theorem State.modTile_replays (s : State) (t : Nat) (f : Tile → Tile) : (s.modTile t f).replays = s.replays := rfl
@[simp] theorem State.modTile_loopback (s : State) (t : Nat) (f : Tile → Tile) : (s.modTile t f).loopback = s.loopback := rfl
@[simp] theorem State.modTile_beacons (s : State) (t : Nat) (f : Tile → Tile) : (s.modTile t f).beacons = s.beacons := rfl
@[simp] theorem State.modTile_pairs (s : State) (t : Nat) (f : Tile → Tile) : (s.modTile t f).pairs = s.pairs := rfl
@[simp] theorem State.modTile_queues (s : State) (t : Nat) (f : Tile → Tile) : (s.modTile t f).queues = s.queues := rfl
@[simp] theorem State.modTile_lastQueues (s : State) (t : Nat) (f : Tile → Tile) : (s.modTile t f).lastQueues = s.lastQueues := rfl
@[simp] theorem State.modTile_firedAt (s : State) (t : Nat) (f : Tile → Tile) : (s.modTile t f).firedAt = s.firedAt := rfl
@[simp] theorem State.modTile_lsems (s : State) (t : Nat) (f : Tile → Tile) : (s.modTile t f).lsems = s.lsems := rfl
@[simp] theorem State.modTile_launches (s : State) (t : Nat) (f : Tile → Tile) : (s.modTile t f).launches = s.launches := rfl
@[simp] theorem State.modTile_master (s : State) (t : Nat) (f : Tile → Tile) : (s.modTile t f).master = s.master := rfl
@[simp] theorem State.modTile_outbox (s : State) (t : Nat) (f : Tile → Tile) : (s.modTile t f).outbox = s.outbox := rfl
@[simp] theorem State.modTile_messages (s : State) (t : Nat) (f : Tile → Tile) : (s.modTile t f).messages = s.messages := rfl
@[simp] theorem State.modTile_running (s : State) (t : Nat) (f : Tile → Tile) : (s.modTile t f).running = s.running := rfl
@[simp] theorem State.modTile_dropped (s : State) (t : Nat) (f : Tile → Tile) : (s.modTile t f).dropped = s.dropped := rfl
@[simp] theorem State.modTile_power (s : State) (t : Nat) (f : Tile → Tile) : (s.modTile t f).power = s.power := rfl
@[simp] theorem State.modTile_boot (s : State) (t : Nat) (f : Tile → Tile) : (s.modTile t f).boot = s.boot := rfl
@[simp] theorem State.modTile_places (s : State) (t : Nat) (f : Tile → Tile) : (s.modTile t f).places = s.places := rfl
@[simp] theorem State.modTile_stage (s : State) (t : Nat) (f : Tile → Tile) : (s.modTile t f).stage = s.stage := rfl
@[simp] theorem State.modTile_turn (s : State) (t : Nat) (f : Tile → Tile) : (s.modTile t f).turn = s.turn := rfl
@[simp] theorem State.modTile_agenda (s : State) (t : Nat) (f : Tile → Tile) : (s.modTile t f).agenda = s.agenda := rfl
@[simp] theorem State.modTile_inbox (s : State) (t : Nat) (f : Tile → Tile) : (s.modTile t f).inbox = s.inbox := rfl
@[simp] theorem State.modTile_focus (s : State) (t : Nat) (f : Tile → Tile) : (s.modTile t f).focus = s.focus := rfl
@[simp] theorem State.modTile_issue (s : State) (t : Nat) (f : Tile → Tile) : (s.modTile t f).issue = s.issue := rfl
@[simp] theorem State.modTile_free (s : State) (t : Nat) (f : Tile → Tile) : (s.modTile t f).free = s.free := rfl
@[simp] theorem State.modTile_nextId (s : State) (t : Nat) (f : Tile → Tile) : (s.modTile t f).nextId = s.nextId := rfl
@[simp] theorem State.modTile_torusX (s : State) (t : Nat) (f : Tile → Tile) : (s.modTile t f).torusX = s.torusX := rfl
@[simp] theorem State.modTile_torusY (s : State) (t : Nat) (f : Tile → Tile) : (s.modTile t f).torusY = s.torusY := rfl
@[simp] theorem State.modTile_torusZ (s : State) (t : Nat) (f : Tile → Tile) : (s.modTile t f).torusZ = s.torusZ := rfl

/-! #### setCtx -/

@[simp] theorem State.setCtx_dies (s : State) (t c : Nat) (k : Ctx) : (s.setCtx t c k).dies = s.dies := rfl
@[simp] theorem State.setCtx_hbm (s : State) (t c : Nat) (k : Ctx) : (s.setCtx t c k).hbm = s.hbm := rfl
@[simp] theorem State.setCtx_hbmPair (s : State) (t c : Nat) (k : Ctx) : (s.setCtx t c k).hbmPair = s.hbmPair := rfl
@[simp] theorem State.setCtx_descs (s : State) (t c : Nat) (k : Ctx) : (s.setCtx t c k).descs = s.descs := rfl
@[simp] theorem State.setCtx_keys (s : State) (t c : Nat) (k : Ctx) : (s.setCtx t c k).keys = s.keys := rfl
@[simp] theorem State.setCtx_switches (s : State) (t c : Nat) (k : Ctx) : (s.setCtx t c k).switches = s.switches := rfl
@[simp] theorem State.setCtx_hubRanges (s : State) (t c : Nat) (k : Ctx) : (s.setCtx t c k).hubRanges = s.hubRanges := rfl
@[simp] theorem State.setCtx_saved (s : State) (t c : Nat) (k : Ctx) : (s.setCtx t c k).saved = s.saved := rfl
@[simp] theorem State.setCtx_mesh (s : State) (t c : Nat) (k : Ctx) : (s.setCtx t c k).mesh = s.mesh := rfl
@[simp] theorem State.setCtx_inbound (s : State) (t c : Nat) (k : Ctx) : (s.setCtx t c k).inbound = s.inbound := rfl
@[simp] theorem State.setCtx_air (s : State) (t c : Nat) (k : Ctx) : (s.setCtx t c k).air = s.air := rfl
@[simp] theorem State.setCtx_phasers (s : State) (t c : Nat) (k : Ctx) : (s.setCtx t c k).phasers = s.phasers := rfl
@[simp] theorem State.setCtx_moving (s : State) (t c : Nat) (k : Ctx) : (s.setCtx t c k).moving = s.moving := rfl
@[simp] theorem State.setCtx_scrubs (s : State) (t c : Nat) (k : Ctx) : (s.setCtx t c k).scrubs = s.scrubs := rfl
@[simp] theorem State.setCtx_keyDie (s : State) (t c : Nat) (k : Ctx) : (s.setCtx t c k).keyDie = s.keyDie := rfl
@[simp] theorem State.setCtx_regPorts (s : State) (t c : Nat) (k : Ctx) : (s.setCtx t c k).regPorts = s.regPorts := rfl
@[simp] theorem State.setCtx_farPorts (s : State) (t c : Nat) (k : Ctx) : (s.setCtx t c k).farPorts = s.farPorts := rfl
@[simp] theorem State.setCtx_apart (s : State) (t c : Nat) (k : Ctx) : (s.setCtx t c k).apart = s.apart := rfl
@[simp] theorem State.setCtx_replays (s : State) (t c : Nat) (k : Ctx) : (s.setCtx t c k).replays = s.replays := rfl
@[simp] theorem State.setCtx_loopback (s : State) (t c : Nat) (k : Ctx) : (s.setCtx t c k).loopback = s.loopback := rfl
@[simp] theorem State.setCtx_beacons (s : State) (t c : Nat) (k : Ctx) : (s.setCtx t c k).beacons = s.beacons := rfl
@[simp] theorem State.setCtx_pairs (s : State) (t c : Nat) (k : Ctx) : (s.setCtx t c k).pairs = s.pairs := rfl
@[simp] theorem State.setCtx_queues (s : State) (t c : Nat) (k : Ctx) : (s.setCtx t c k).queues = s.queues := rfl
@[simp] theorem State.setCtx_lastQueues (s : State) (t c : Nat) (k : Ctx) : (s.setCtx t c k).lastQueues = s.lastQueues := rfl
@[simp] theorem State.setCtx_firedAt (s : State) (t c : Nat) (k : Ctx) : (s.setCtx t c k).firedAt = s.firedAt := rfl
@[simp] theorem State.setCtx_lsems (s : State) (t c : Nat) (k : Ctx) : (s.setCtx t c k).lsems = s.lsems := rfl
@[simp] theorem State.setCtx_launches (s : State) (t c : Nat) (k : Ctx) : (s.setCtx t c k).launches = s.launches := rfl
@[simp] theorem State.setCtx_master (s : State) (t c : Nat) (k : Ctx) : (s.setCtx t c k).master = s.master := rfl
@[simp] theorem State.setCtx_outbox (s : State) (t c : Nat) (k : Ctx) : (s.setCtx t c k).outbox = s.outbox := rfl
@[simp] theorem State.setCtx_messages (s : State) (t c : Nat) (k : Ctx) : (s.setCtx t c k).messages = s.messages := rfl
@[simp] theorem State.setCtx_running (s : State) (t c : Nat) (k : Ctx) : (s.setCtx t c k).running = s.running := rfl
@[simp] theorem State.setCtx_dropped (s : State) (t c : Nat) (k : Ctx) : (s.setCtx t c k).dropped = s.dropped := rfl
@[simp] theorem State.setCtx_power (s : State) (t c : Nat) (k : Ctx) : (s.setCtx t c k).power = s.power := rfl
@[simp] theorem State.setCtx_boot (s : State) (t c : Nat) (k : Ctx) : (s.setCtx t c k).boot = s.boot := rfl
@[simp] theorem State.setCtx_places (s : State) (t c : Nat) (k : Ctx) : (s.setCtx t c k).places = s.places := rfl
@[simp] theorem State.setCtx_stage (s : State) (t c : Nat) (k : Ctx) : (s.setCtx t c k).stage = s.stage := rfl
@[simp] theorem State.setCtx_turn (s : State) (t c : Nat) (k : Ctx) : (s.setCtx t c k).turn = s.turn := rfl
@[simp] theorem State.setCtx_agenda (s : State) (t c : Nat) (k : Ctx) : (s.setCtx t c k).agenda = s.agenda := rfl
@[simp] theorem State.setCtx_inbox (s : State) (t c : Nat) (k : Ctx) : (s.setCtx t c k).inbox = s.inbox := rfl
@[simp] theorem State.setCtx_focus (s : State) (t c : Nat) (k : Ctx) : (s.setCtx t c k).focus = s.focus := rfl
@[simp] theorem State.setCtx_issue (s : State) (t c : Nat) (k : Ctx) : (s.setCtx t c k).issue = s.issue := rfl
@[simp] theorem State.setCtx_free (s : State) (t c : Nat) (k : Ctx) : (s.setCtx t c k).free = s.free := rfl
@[simp] theorem State.setCtx_nextId (s : State) (t c : Nat) (k : Ctx) : (s.setCtx t c k).nextId = s.nextId := rfl
@[simp] theorem State.setCtx_torusX (s : State) (t c : Nat) (k : Ctx) : (s.setCtx t c k).torusX = s.torusX := rfl
@[simp] theorem State.setCtx_torusY (s : State) (t c : Nat) (k : Ctx) : (s.setCtx t c k).torusY = s.torusY := rfl
@[simp] theorem State.setCtx_torusZ (s : State) (t c : Nat) (k : Ctx) : (s.setCtx t c k).torusZ = s.torusZ := rfl

/-! #### modCtx -/

@[simp] theorem State.modCtx_dies (s : State) (t c : Nat) (f : Ctx → Ctx) : (s.modCtx t c f).dies = s.dies := rfl
@[simp] theorem State.modCtx_hbm (s : State) (t c : Nat) (f : Ctx → Ctx) : (s.modCtx t c f).hbm = s.hbm := rfl
@[simp] theorem State.modCtx_hbmPair (s : State) (t c : Nat) (f : Ctx → Ctx) : (s.modCtx t c f).hbmPair = s.hbmPair := rfl
@[simp] theorem State.modCtx_descs (s : State) (t c : Nat) (f : Ctx → Ctx) : (s.modCtx t c f).descs = s.descs := rfl
@[simp] theorem State.modCtx_keys (s : State) (t c : Nat) (f : Ctx → Ctx) : (s.modCtx t c f).keys = s.keys := rfl
@[simp] theorem State.modCtx_switches (s : State) (t c : Nat) (f : Ctx → Ctx) : (s.modCtx t c f).switches = s.switches := rfl
@[simp] theorem State.modCtx_hubRanges (s : State) (t c : Nat) (f : Ctx → Ctx) : (s.modCtx t c f).hubRanges = s.hubRanges := rfl
@[simp] theorem State.modCtx_saved (s : State) (t c : Nat) (f : Ctx → Ctx) : (s.modCtx t c f).saved = s.saved := rfl
@[simp] theorem State.modCtx_mesh (s : State) (t c : Nat) (f : Ctx → Ctx) : (s.modCtx t c f).mesh = s.mesh := rfl
@[simp] theorem State.modCtx_inbound (s : State) (t c : Nat) (f : Ctx → Ctx) : (s.modCtx t c f).inbound = s.inbound := rfl
@[simp] theorem State.modCtx_air (s : State) (t c : Nat) (f : Ctx → Ctx) : (s.modCtx t c f).air = s.air := rfl
@[simp] theorem State.modCtx_phasers (s : State) (t c : Nat) (f : Ctx → Ctx) : (s.modCtx t c f).phasers = s.phasers := rfl
@[simp] theorem State.modCtx_moving (s : State) (t c : Nat) (f : Ctx → Ctx) : (s.modCtx t c f).moving = s.moving := rfl
@[simp] theorem State.modCtx_scrubs (s : State) (t c : Nat) (f : Ctx → Ctx) : (s.modCtx t c f).scrubs = s.scrubs := rfl
@[simp] theorem State.modCtx_keyDie (s : State) (t c : Nat) (f : Ctx → Ctx) : (s.modCtx t c f).keyDie = s.keyDie := rfl
@[simp] theorem State.modCtx_regPorts (s : State) (t c : Nat) (f : Ctx → Ctx) : (s.modCtx t c f).regPorts = s.regPorts := rfl
@[simp] theorem State.modCtx_farPorts (s : State) (t c : Nat) (f : Ctx → Ctx) : (s.modCtx t c f).farPorts = s.farPorts := rfl
@[simp] theorem State.modCtx_apart (s : State) (t c : Nat) (f : Ctx → Ctx) : (s.modCtx t c f).apart = s.apart := rfl
@[simp] theorem State.modCtx_replays (s : State) (t c : Nat) (f : Ctx → Ctx) : (s.modCtx t c f).replays = s.replays := rfl
@[simp] theorem State.modCtx_loopback (s : State) (t c : Nat) (f : Ctx → Ctx) : (s.modCtx t c f).loopback = s.loopback := rfl
@[simp] theorem State.modCtx_beacons (s : State) (t c : Nat) (f : Ctx → Ctx) : (s.modCtx t c f).beacons = s.beacons := rfl
@[simp] theorem State.modCtx_pairs (s : State) (t c : Nat) (f : Ctx → Ctx) : (s.modCtx t c f).pairs = s.pairs := rfl
@[simp] theorem State.modCtx_queues (s : State) (t c : Nat) (f : Ctx → Ctx) : (s.modCtx t c f).queues = s.queues := rfl
@[simp] theorem State.modCtx_lastQueues (s : State) (t c : Nat) (f : Ctx → Ctx) : (s.modCtx t c f).lastQueues = s.lastQueues := rfl
@[simp] theorem State.modCtx_firedAt (s : State) (t c : Nat) (f : Ctx → Ctx) : (s.modCtx t c f).firedAt = s.firedAt := rfl
@[simp] theorem State.modCtx_lsems (s : State) (t c : Nat) (f : Ctx → Ctx) : (s.modCtx t c f).lsems = s.lsems := rfl
@[simp] theorem State.modCtx_launches (s : State) (t c : Nat) (f : Ctx → Ctx) : (s.modCtx t c f).launches = s.launches := rfl
@[simp] theorem State.modCtx_master (s : State) (t c : Nat) (f : Ctx → Ctx) : (s.modCtx t c f).master = s.master := rfl
@[simp] theorem State.modCtx_outbox (s : State) (t c : Nat) (f : Ctx → Ctx) : (s.modCtx t c f).outbox = s.outbox := rfl
@[simp] theorem State.modCtx_messages (s : State) (t c : Nat) (f : Ctx → Ctx) : (s.modCtx t c f).messages = s.messages := rfl
@[simp] theorem State.modCtx_running (s : State) (t c : Nat) (f : Ctx → Ctx) : (s.modCtx t c f).running = s.running := rfl
@[simp] theorem State.modCtx_dropped (s : State) (t c : Nat) (f : Ctx → Ctx) : (s.modCtx t c f).dropped = s.dropped := rfl
@[simp] theorem State.modCtx_power (s : State) (t c : Nat) (f : Ctx → Ctx) : (s.modCtx t c f).power = s.power := rfl
@[simp] theorem State.modCtx_boot (s : State) (t c : Nat) (f : Ctx → Ctx) : (s.modCtx t c f).boot = s.boot := rfl
@[simp] theorem State.modCtx_places (s : State) (t c : Nat) (f : Ctx → Ctx) : (s.modCtx t c f).places = s.places := rfl
@[simp] theorem State.modCtx_stage (s : State) (t c : Nat) (f : Ctx → Ctx) : (s.modCtx t c f).stage = s.stage := rfl
@[simp] theorem State.modCtx_turn (s : State) (t c : Nat) (f : Ctx → Ctx) : (s.modCtx t c f).turn = s.turn := rfl
@[simp] theorem State.modCtx_agenda (s : State) (t c : Nat) (f : Ctx → Ctx) : (s.modCtx t c f).agenda = s.agenda := rfl
@[simp] theorem State.modCtx_inbox (s : State) (t c : Nat) (f : Ctx → Ctx) : (s.modCtx t c f).inbox = s.inbox := rfl
@[simp] theorem State.modCtx_focus (s : State) (t c : Nat) (f : Ctx → Ctx) : (s.modCtx t c f).focus = s.focus := rfl
@[simp] theorem State.modCtx_issue (s : State) (t c : Nat) (f : Ctx → Ctx) : (s.modCtx t c f).issue = s.issue := rfl
@[simp] theorem State.modCtx_free (s : State) (t c : Nat) (f : Ctx → Ctx) : (s.modCtx t c f).free = s.free := rfl
@[simp] theorem State.modCtx_nextId (s : State) (t c : Nat) (f : Ctx → Ctx) : (s.modCtx t c f).nextId = s.nextId := rfl
@[simp] theorem State.modCtx_torusX (s : State) (t c : Nat) (f : Ctx → Ctx) : (s.modCtx t c f).torusX = s.torusX := rfl
@[simp] theorem State.modCtx_torusY (s : State) (t c : Nat) (f : Ctx → Ctx) : (s.modCtx t c f).torusY = s.torusY := rfl
@[simp] theorem State.modCtx_torusZ (s : State) (t c : Nat) (f : Ctx → Ctx) : (s.modCtx t c f).torusZ = s.torusZ := rfl

/-! #### modCur -/

@[simp] theorem State.modCur_dies (s : State) (f : Ctx → Ctx) : (s.modCur f).dies = s.dies := rfl
@[simp] theorem State.modCur_hbm (s : State) (f : Ctx → Ctx) : (s.modCur f).hbm = s.hbm := rfl
@[simp] theorem State.modCur_hbmPair (s : State) (f : Ctx → Ctx) : (s.modCur f).hbmPair = s.hbmPair := rfl
@[simp] theorem State.modCur_descs (s : State) (f : Ctx → Ctx) : (s.modCur f).descs = s.descs := rfl
@[simp] theorem State.modCur_keys (s : State) (f : Ctx → Ctx) : (s.modCur f).keys = s.keys := rfl
@[simp] theorem State.modCur_switches (s : State) (f : Ctx → Ctx) : (s.modCur f).switches = s.switches := rfl
@[simp] theorem State.modCur_hubRanges (s : State) (f : Ctx → Ctx) : (s.modCur f).hubRanges = s.hubRanges := rfl
@[simp] theorem State.modCur_saved (s : State) (f : Ctx → Ctx) : (s.modCur f).saved = s.saved := rfl
@[simp] theorem State.modCur_mesh (s : State) (f : Ctx → Ctx) : (s.modCur f).mesh = s.mesh := rfl
@[simp] theorem State.modCur_inbound (s : State) (f : Ctx → Ctx) : (s.modCur f).inbound = s.inbound := rfl
@[simp] theorem State.modCur_air (s : State) (f : Ctx → Ctx) : (s.modCur f).air = s.air := rfl
@[simp] theorem State.modCur_phasers (s : State) (f : Ctx → Ctx) : (s.modCur f).phasers = s.phasers := rfl
@[simp] theorem State.modCur_moving (s : State) (f : Ctx → Ctx) : (s.modCur f).moving = s.moving := rfl
@[simp] theorem State.modCur_scrubs (s : State) (f : Ctx → Ctx) : (s.modCur f).scrubs = s.scrubs := rfl
@[simp] theorem State.modCur_keyDie (s : State) (f : Ctx → Ctx) : (s.modCur f).keyDie = s.keyDie := rfl
@[simp] theorem State.modCur_regPorts (s : State) (f : Ctx → Ctx) : (s.modCur f).regPorts = s.regPorts := rfl
@[simp] theorem State.modCur_farPorts (s : State) (f : Ctx → Ctx) : (s.modCur f).farPorts = s.farPorts := rfl
@[simp] theorem State.modCur_apart (s : State) (f : Ctx → Ctx) : (s.modCur f).apart = s.apart := rfl
@[simp] theorem State.modCur_replays (s : State) (f : Ctx → Ctx) : (s.modCur f).replays = s.replays := rfl
@[simp] theorem State.modCur_loopback (s : State) (f : Ctx → Ctx) : (s.modCur f).loopback = s.loopback := rfl
@[simp] theorem State.modCur_beacons (s : State) (f : Ctx → Ctx) : (s.modCur f).beacons = s.beacons := rfl
@[simp] theorem State.modCur_pairs (s : State) (f : Ctx → Ctx) : (s.modCur f).pairs = s.pairs := rfl
@[simp] theorem State.modCur_queues (s : State) (f : Ctx → Ctx) : (s.modCur f).queues = s.queues := rfl
@[simp] theorem State.modCur_lastQueues (s : State) (f : Ctx → Ctx) : (s.modCur f).lastQueues = s.lastQueues := rfl
@[simp] theorem State.modCur_firedAt (s : State) (f : Ctx → Ctx) : (s.modCur f).firedAt = s.firedAt := rfl
@[simp] theorem State.modCur_lsems (s : State) (f : Ctx → Ctx) : (s.modCur f).lsems = s.lsems := rfl
@[simp] theorem State.modCur_launches (s : State) (f : Ctx → Ctx) : (s.modCur f).launches = s.launches := rfl
@[simp] theorem State.modCur_master (s : State) (f : Ctx → Ctx) : (s.modCur f).master = s.master := rfl
@[simp] theorem State.modCur_outbox (s : State) (f : Ctx → Ctx) : (s.modCur f).outbox = s.outbox := rfl
@[simp] theorem State.modCur_messages (s : State) (f : Ctx → Ctx) : (s.modCur f).messages = s.messages := rfl
@[simp] theorem State.modCur_running (s : State) (f : Ctx → Ctx) : (s.modCur f).running = s.running := rfl
@[simp] theorem State.modCur_dropped (s : State) (f : Ctx → Ctx) : (s.modCur f).dropped = s.dropped := rfl
@[simp] theorem State.modCur_power (s : State) (f : Ctx → Ctx) : (s.modCur f).power = s.power := rfl
@[simp] theorem State.modCur_boot (s : State) (f : Ctx → Ctx) : (s.modCur f).boot = s.boot := rfl
@[simp] theorem State.modCur_places (s : State) (f : Ctx → Ctx) : (s.modCur f).places = s.places := rfl
@[simp] theorem State.modCur_stage (s : State) (f : Ctx → Ctx) : (s.modCur f).stage = s.stage := rfl
@[simp] theorem State.modCur_turn (s : State) (f : Ctx → Ctx) : (s.modCur f).turn = s.turn := rfl
@[simp] theorem State.modCur_agenda (s : State) (f : Ctx → Ctx) : (s.modCur f).agenda = s.agenda := rfl
@[simp] theorem State.modCur_inbox (s : State) (f : Ctx → Ctx) : (s.modCur f).inbox = s.inbox := rfl
@[simp] theorem State.modCur_focus (s : State) (f : Ctx → Ctx) : (s.modCur f).focus = s.focus := rfl
@[simp] theorem State.modCur_issue (s : State) (f : Ctx → Ctx) : (s.modCur f).issue = s.issue := rfl
@[simp] theorem State.modCur_free (s : State) (f : Ctx → Ctx) : (s.modCur f).free = s.free := rfl
@[simp] theorem State.modCur_nextId (s : State) (f : Ctx → Ctx) : (s.modCur f).nextId = s.nextId := rfl
@[simp] theorem State.modCur_torusX (s : State) (f : Ctx → Ctx) : (s.modCur f).torusX = s.torusX := rfl
@[simp] theorem State.modCur_torusY (s : State) (f : Ctx → Ctx) : (s.modCur f).torusY = s.torusY := rfl
@[simp] theorem State.modCur_torusZ (s : State) (f : Ctx → Ctx) : (s.modCur f).torusZ = s.torusZ := rfl

/-! #### modCurTile -/

@[simp] theorem State.modCurTile_dies (s : State) (f : Tile → Tile) : (s.modCurTile f).dies = s.dies := rfl
@[simp] theorem State.modCurTile_hbm (s : State) (f : Tile → Tile) : (s.modCurTile f).hbm = s.hbm := rfl
@[simp] theorem State.modCurTile_hbmPair (s : State) (f : Tile → Tile) : (s.modCurTile f).hbmPair = s.hbmPair := rfl
@[simp] theorem State.modCurTile_descs (s : State) (f : Tile → Tile) : (s.modCurTile f).descs = s.descs := rfl
@[simp] theorem State.modCurTile_keys (s : State) (f : Tile → Tile) : (s.modCurTile f).keys = s.keys := rfl
@[simp] theorem State.modCurTile_switches (s : State) (f : Tile → Tile) : (s.modCurTile f).switches = s.switches := rfl
@[simp] theorem State.modCurTile_hubRanges (s : State) (f : Tile → Tile) : (s.modCurTile f).hubRanges = s.hubRanges := rfl
@[simp] theorem State.modCurTile_saved (s : State) (f : Tile → Tile) : (s.modCurTile f).saved = s.saved := rfl
@[simp] theorem State.modCurTile_mesh (s : State) (f : Tile → Tile) : (s.modCurTile f).mesh = s.mesh := rfl
@[simp] theorem State.modCurTile_inbound (s : State) (f : Tile → Tile) : (s.modCurTile f).inbound = s.inbound := rfl
@[simp] theorem State.modCurTile_air (s : State) (f : Tile → Tile) : (s.modCurTile f).air = s.air := rfl
@[simp] theorem State.modCurTile_phasers (s : State) (f : Tile → Tile) : (s.modCurTile f).phasers = s.phasers := rfl
@[simp] theorem State.modCurTile_moving (s : State) (f : Tile → Tile) : (s.modCurTile f).moving = s.moving := rfl
@[simp] theorem State.modCurTile_scrubs (s : State) (f : Tile → Tile) : (s.modCurTile f).scrubs = s.scrubs := rfl
@[simp] theorem State.modCurTile_keyDie (s : State) (f : Tile → Tile) : (s.modCurTile f).keyDie = s.keyDie := rfl
@[simp] theorem State.modCurTile_regPorts (s : State) (f : Tile → Tile) : (s.modCurTile f).regPorts = s.regPorts := rfl
@[simp] theorem State.modCurTile_farPorts (s : State) (f : Tile → Tile) : (s.modCurTile f).farPorts = s.farPorts := rfl
@[simp] theorem State.modCurTile_apart (s : State) (f : Tile → Tile) : (s.modCurTile f).apart = s.apart := rfl
@[simp] theorem State.modCurTile_replays (s : State) (f : Tile → Tile) : (s.modCurTile f).replays = s.replays := rfl
@[simp] theorem State.modCurTile_loopback (s : State) (f : Tile → Tile) : (s.modCurTile f).loopback = s.loopback := rfl
@[simp] theorem State.modCurTile_beacons (s : State) (f : Tile → Tile) : (s.modCurTile f).beacons = s.beacons := rfl
@[simp] theorem State.modCurTile_pairs (s : State) (f : Tile → Tile) : (s.modCurTile f).pairs = s.pairs := rfl
@[simp] theorem State.modCurTile_queues (s : State) (f : Tile → Tile) : (s.modCurTile f).queues = s.queues := rfl
@[simp] theorem State.modCurTile_lastQueues (s : State) (f : Tile → Tile) : (s.modCurTile f).lastQueues = s.lastQueues := rfl
@[simp] theorem State.modCurTile_firedAt (s : State) (f : Tile → Tile) : (s.modCurTile f).firedAt = s.firedAt := rfl
@[simp] theorem State.modCurTile_lsems (s : State) (f : Tile → Tile) : (s.modCurTile f).lsems = s.lsems := rfl
@[simp] theorem State.modCurTile_launches (s : State) (f : Tile → Tile) : (s.modCurTile f).launches = s.launches := rfl
@[simp] theorem State.modCurTile_master (s : State) (f : Tile → Tile) : (s.modCurTile f).master = s.master := rfl
@[simp] theorem State.modCurTile_outbox (s : State) (f : Tile → Tile) : (s.modCurTile f).outbox = s.outbox := rfl
@[simp] theorem State.modCurTile_messages (s : State) (f : Tile → Tile) : (s.modCurTile f).messages = s.messages := rfl
@[simp] theorem State.modCurTile_running (s : State) (f : Tile → Tile) : (s.modCurTile f).running = s.running := rfl
@[simp] theorem State.modCurTile_dropped (s : State) (f : Tile → Tile) : (s.modCurTile f).dropped = s.dropped := rfl
@[simp] theorem State.modCurTile_power (s : State) (f : Tile → Tile) : (s.modCurTile f).power = s.power := rfl
@[simp] theorem State.modCurTile_boot (s : State) (f : Tile → Tile) : (s.modCurTile f).boot = s.boot := rfl
@[simp] theorem State.modCurTile_places (s : State) (f : Tile → Tile) : (s.modCurTile f).places = s.places := rfl
@[simp] theorem State.modCurTile_stage (s : State) (f : Tile → Tile) : (s.modCurTile f).stage = s.stage := rfl
@[simp] theorem State.modCurTile_turn (s : State) (f : Tile → Tile) : (s.modCurTile f).turn = s.turn := rfl
@[simp] theorem State.modCurTile_agenda (s : State) (f : Tile → Tile) : (s.modCurTile f).agenda = s.agenda := rfl
@[simp] theorem State.modCurTile_inbox (s : State) (f : Tile → Tile) : (s.modCurTile f).inbox = s.inbox := rfl
@[simp] theorem State.modCurTile_focus (s : State) (f : Tile → Tile) : (s.modCurTile f).focus = s.focus := rfl
@[simp] theorem State.modCurTile_issue (s : State) (f : Tile → Tile) : (s.modCurTile f).issue = s.issue := rfl
@[simp] theorem State.modCurTile_free (s : State) (f : Tile → Tile) : (s.modCurTile f).free = s.free := rfl
@[simp] theorem State.modCurTile_nextId (s : State) (f : Tile → Tile) : (s.modCurTile f).nextId = s.nextId := rfl
@[simp] theorem State.modCurTile_torusX (s : State) (f : Tile → Tile) : (s.modCurTile f).torusX = s.torusX := rfl
@[simp] theorem State.modCurTile_torusY (s : State) (f : Tile → Tile) : (s.modCurTile f).torusY = s.torusY := rfl
@[simp] theorem State.modCurTile_torusZ (s : State) (f : Tile → Tile) : (s.modCurTile f).torusZ = s.torusZ := rfl

/-! #### modDie -/

@[simp] theorem State.modDie_tiles (s : State) (d : Nat) (f : Die → Die) : (s.modDie d f).tiles = s.tiles := rfl
@[simp] theorem State.modDie_hbm (s : State) (d : Nat) (f : Die → Die) : (s.modDie d f).hbm = s.hbm := rfl
@[simp] theorem State.modDie_hbmPair (s : State) (d : Nat) (f : Die → Die) : (s.modDie d f).hbmPair = s.hbmPair := rfl
@[simp] theorem State.modDie_descs (s : State) (d : Nat) (f : Die → Die) : (s.modDie d f).descs = s.descs := rfl
@[simp] theorem State.modDie_keys (s : State) (d : Nat) (f : Die → Die) : (s.modDie d f).keys = s.keys := rfl
@[simp] theorem State.modDie_switches (s : State) (d : Nat) (f : Die → Die) : (s.modDie d f).switches = s.switches := rfl
@[simp] theorem State.modDie_hubRanges (s : State) (d : Nat) (f : Die → Die) : (s.modDie d f).hubRanges = s.hubRanges := rfl
@[simp] theorem State.modDie_saved (s : State) (d : Nat) (f : Die → Die) : (s.modDie d f).saved = s.saved := rfl
@[simp] theorem State.modDie_mesh (s : State) (d : Nat) (f : Die → Die) : (s.modDie d f).mesh = s.mesh := rfl
@[simp] theorem State.modDie_inbound (s : State) (d : Nat) (f : Die → Die) : (s.modDie d f).inbound = s.inbound := rfl
@[simp] theorem State.modDie_air (s : State) (d : Nat) (f : Die → Die) : (s.modDie d f).air = s.air := rfl
@[simp] theorem State.modDie_phasers (s : State) (d : Nat) (f : Die → Die) : (s.modDie d f).phasers = s.phasers := rfl
@[simp] theorem State.modDie_moving (s : State) (d : Nat) (f : Die → Die) : (s.modDie d f).moving = s.moving := rfl
@[simp] theorem State.modDie_scrubs (s : State) (d : Nat) (f : Die → Die) : (s.modDie d f).scrubs = s.scrubs := rfl
@[simp] theorem State.modDie_keyDie (s : State) (d : Nat) (f : Die → Die) : (s.modDie d f).keyDie = s.keyDie := rfl
@[simp] theorem State.modDie_regPorts (s : State) (d : Nat) (f : Die → Die) : (s.modDie d f).regPorts = s.regPorts := rfl
@[simp] theorem State.modDie_farPorts (s : State) (d : Nat) (f : Die → Die) : (s.modDie d f).farPorts = s.farPorts := rfl
@[simp] theorem State.modDie_apart (s : State) (d : Nat) (f : Die → Die) : (s.modDie d f).apart = s.apart := rfl
@[simp] theorem State.modDie_replays (s : State) (d : Nat) (f : Die → Die) : (s.modDie d f).replays = s.replays := rfl
@[simp] theorem State.modDie_loopback (s : State) (d : Nat) (f : Die → Die) : (s.modDie d f).loopback = s.loopback := rfl
@[simp] theorem State.modDie_beacons (s : State) (d : Nat) (f : Die → Die) : (s.modDie d f).beacons = s.beacons := rfl
@[simp] theorem State.modDie_pairs (s : State) (d : Nat) (f : Die → Die) : (s.modDie d f).pairs = s.pairs := rfl
@[simp] theorem State.modDie_queues (s : State) (d : Nat) (f : Die → Die) : (s.modDie d f).queues = s.queues := rfl
@[simp] theorem State.modDie_lastQueues (s : State) (d : Nat) (f : Die → Die) : (s.modDie d f).lastQueues = s.lastQueues := rfl
@[simp] theorem State.modDie_firedAt (s : State) (d : Nat) (f : Die → Die) : (s.modDie d f).firedAt = s.firedAt := rfl
@[simp] theorem State.modDie_lsems (s : State) (d : Nat) (f : Die → Die) : (s.modDie d f).lsems = s.lsems := rfl
@[simp] theorem State.modDie_launches (s : State) (d : Nat) (f : Die → Die) : (s.modDie d f).launches = s.launches := rfl
@[simp] theorem State.modDie_master (s : State) (d : Nat) (f : Die → Die) : (s.modDie d f).master = s.master := rfl
@[simp] theorem State.modDie_outbox (s : State) (d : Nat) (f : Die → Die) : (s.modDie d f).outbox = s.outbox := rfl
@[simp] theorem State.modDie_messages (s : State) (d : Nat) (f : Die → Die) : (s.modDie d f).messages = s.messages := rfl
@[simp] theorem State.modDie_running (s : State) (d : Nat) (f : Die → Die) : (s.modDie d f).running = s.running := rfl
@[simp] theorem State.modDie_dropped (s : State) (d : Nat) (f : Die → Die) : (s.modDie d f).dropped = s.dropped := rfl
@[simp] theorem State.modDie_power (s : State) (d : Nat) (f : Die → Die) : (s.modDie d f).power = s.power := rfl
@[simp] theorem State.modDie_boot (s : State) (d : Nat) (f : Die → Die) : (s.modDie d f).boot = s.boot := rfl
@[simp] theorem State.modDie_places (s : State) (d : Nat) (f : Die → Die) : (s.modDie d f).places = s.places := rfl
@[simp] theorem State.modDie_stage (s : State) (d : Nat) (f : Die → Die) : (s.modDie d f).stage = s.stage := rfl
@[simp] theorem State.modDie_turn (s : State) (d : Nat) (f : Die → Die) : (s.modDie d f).turn = s.turn := rfl
@[simp] theorem State.modDie_agenda (s : State) (d : Nat) (f : Die → Die) : (s.modDie d f).agenda = s.agenda := rfl
@[simp] theorem State.modDie_inbox (s : State) (d : Nat) (f : Die → Die) : (s.modDie d f).inbox = s.inbox := rfl
@[simp] theorem State.modDie_focus (s : State) (d : Nat) (f : Die → Die) : (s.modDie d f).focus = s.focus := rfl
@[simp] theorem State.modDie_issue (s : State) (d : Nat) (f : Die → Die) : (s.modDie d f).issue = s.issue := rfl
@[simp] theorem State.modDie_free (s : State) (d : Nat) (f : Die → Die) : (s.modDie d f).free = s.free := rfl
@[simp] theorem State.modDie_nextId (s : State) (d : Nat) (f : Die → Die) : (s.modDie d f).nextId = s.nextId := rfl
@[simp] theorem State.modDie_torusX (s : State) (d : Nat) (f : Die → Die) : (s.modDie d f).torusX = s.torusX := rfl
@[simp] theorem State.modDie_torusY (s : State) (d : Nat) (f : Die → Die) : (s.modDie d f).torusY = s.torusY := rfl
@[simp] theorem State.modDie_torusZ (s : State) (d : Nat) (f : Die → Die) : (s.modDie d f).torusZ = s.torusZ := rfl

/-! #### modIssue -/

@[simp] theorem State.modIssue_tiles (s : State) (f : Issue → Issue) : (s.modIssue f).tiles = s.tiles := rfl
@[simp] theorem State.modIssue_dies (s : State) (f : Issue → Issue) : (s.modIssue f).dies = s.dies := rfl
@[simp] theorem State.modIssue_hbm (s : State) (f : Issue → Issue) : (s.modIssue f).hbm = s.hbm := rfl
@[simp] theorem State.modIssue_hbmPair (s : State) (f : Issue → Issue) : (s.modIssue f).hbmPair = s.hbmPair := rfl
@[simp] theorem State.modIssue_descs (s : State) (f : Issue → Issue) : (s.modIssue f).descs = s.descs := rfl
@[simp] theorem State.modIssue_keys (s : State) (f : Issue → Issue) : (s.modIssue f).keys = s.keys := rfl
@[simp] theorem State.modIssue_switches (s : State) (f : Issue → Issue) : (s.modIssue f).switches = s.switches := rfl
@[simp] theorem State.modIssue_hubRanges (s : State) (f : Issue → Issue) : (s.modIssue f).hubRanges = s.hubRanges := rfl
@[simp] theorem State.modIssue_saved (s : State) (f : Issue → Issue) : (s.modIssue f).saved = s.saved := rfl
@[simp] theorem State.modIssue_mesh (s : State) (f : Issue → Issue) : (s.modIssue f).mesh = s.mesh := rfl
@[simp] theorem State.modIssue_inbound (s : State) (f : Issue → Issue) : (s.modIssue f).inbound = s.inbound := rfl
@[simp] theorem State.modIssue_air (s : State) (f : Issue → Issue) : (s.modIssue f).air = s.air := rfl
@[simp] theorem State.modIssue_phasers (s : State) (f : Issue → Issue) : (s.modIssue f).phasers = s.phasers := rfl
@[simp] theorem State.modIssue_moving (s : State) (f : Issue → Issue) : (s.modIssue f).moving = s.moving := rfl
@[simp] theorem State.modIssue_scrubs (s : State) (f : Issue → Issue) : (s.modIssue f).scrubs = s.scrubs := rfl
@[simp] theorem State.modIssue_keyDie (s : State) (f : Issue → Issue) : (s.modIssue f).keyDie = s.keyDie := rfl
@[simp] theorem State.modIssue_regPorts (s : State) (f : Issue → Issue) : (s.modIssue f).regPorts = s.regPorts := rfl
@[simp] theorem State.modIssue_farPorts (s : State) (f : Issue → Issue) : (s.modIssue f).farPorts = s.farPorts := rfl
@[simp] theorem State.modIssue_apart (s : State) (f : Issue → Issue) : (s.modIssue f).apart = s.apart := rfl
@[simp] theorem State.modIssue_replays (s : State) (f : Issue → Issue) : (s.modIssue f).replays = s.replays := rfl
@[simp] theorem State.modIssue_loopback (s : State) (f : Issue → Issue) : (s.modIssue f).loopback = s.loopback := rfl
@[simp] theorem State.modIssue_beacons (s : State) (f : Issue → Issue) : (s.modIssue f).beacons = s.beacons := rfl
@[simp] theorem State.modIssue_pairs (s : State) (f : Issue → Issue) : (s.modIssue f).pairs = s.pairs := rfl
@[simp] theorem State.modIssue_queues (s : State) (f : Issue → Issue) : (s.modIssue f).queues = s.queues := rfl
@[simp] theorem State.modIssue_lastQueues (s : State) (f : Issue → Issue) : (s.modIssue f).lastQueues = s.lastQueues := rfl
@[simp] theorem State.modIssue_firedAt (s : State) (f : Issue → Issue) : (s.modIssue f).firedAt = s.firedAt := rfl
@[simp] theorem State.modIssue_lsems (s : State) (f : Issue → Issue) : (s.modIssue f).lsems = s.lsems := rfl
@[simp] theorem State.modIssue_launches (s : State) (f : Issue → Issue) : (s.modIssue f).launches = s.launches := rfl
@[simp] theorem State.modIssue_master (s : State) (f : Issue → Issue) : (s.modIssue f).master = s.master := rfl
@[simp] theorem State.modIssue_outbox (s : State) (f : Issue → Issue) : (s.modIssue f).outbox = s.outbox := rfl
@[simp] theorem State.modIssue_messages (s : State) (f : Issue → Issue) : (s.modIssue f).messages = s.messages := rfl
@[simp] theorem State.modIssue_running (s : State) (f : Issue → Issue) : (s.modIssue f).running = s.running := rfl
@[simp] theorem State.modIssue_dropped (s : State) (f : Issue → Issue) : (s.modIssue f).dropped = s.dropped := rfl
@[simp] theorem State.modIssue_power (s : State) (f : Issue → Issue) : (s.modIssue f).power = s.power := rfl
@[simp] theorem State.modIssue_boot (s : State) (f : Issue → Issue) : (s.modIssue f).boot = s.boot := rfl
@[simp] theorem State.modIssue_places (s : State) (f : Issue → Issue) : (s.modIssue f).places = s.places := rfl
@[simp] theorem State.modIssue_stage (s : State) (f : Issue → Issue) : (s.modIssue f).stage = s.stage := rfl
@[simp] theorem State.modIssue_turn (s : State) (f : Issue → Issue) : (s.modIssue f).turn = s.turn := rfl
@[simp] theorem State.modIssue_agenda (s : State) (f : Issue → Issue) : (s.modIssue f).agenda = s.agenda := rfl
@[simp] theorem State.modIssue_inbox (s : State) (f : Issue → Issue) : (s.modIssue f).inbox = s.inbox := rfl
@[simp] theorem State.modIssue_focus (s : State) (f : Issue → Issue) : (s.modIssue f).focus = s.focus := rfl
@[simp] theorem State.modIssue_free (s : State) (f : Issue → Issue) : (s.modIssue f).free = s.free := rfl
@[simp] theorem State.modIssue_nextId (s : State) (f : Issue → Issue) : (s.modIssue f).nextId = s.nextId := rfl
@[simp] theorem State.modIssue_torusX (s : State) (f : Issue → Issue) : (s.modIssue f).torusX = s.torusX := rfl
@[simp] theorem State.modIssue_torusY (s : State) (f : Issue → Issue) : (s.modIssue f).torusY = s.torusY := rfl
@[simp] theorem State.modIssue_torusZ (s : State) (f : Issue → Issue) : (s.modIssue f).torusZ = s.torusZ := rfl

/-! #### bump -/

@[simp] theorem State.bump_tiles (s : State) : (s.bump).tiles = s.tiles := rfl
@[simp] theorem State.bump_dies (s : State) : (s.bump).dies = s.dies := rfl
@[simp] theorem State.bump_hbm (s : State) : (s.bump).hbm = s.hbm := rfl
@[simp] theorem State.bump_hbmPair (s : State) : (s.bump).hbmPair = s.hbmPair := rfl
@[simp] theorem State.bump_descs (s : State) : (s.bump).descs = s.descs := rfl
@[simp] theorem State.bump_keys (s : State) : (s.bump).keys = s.keys := rfl
@[simp] theorem State.bump_switches (s : State) : (s.bump).switches = s.switches := rfl
@[simp] theorem State.bump_hubRanges (s : State) : (s.bump).hubRanges = s.hubRanges := rfl
@[simp] theorem State.bump_saved (s : State) : (s.bump).saved = s.saved := rfl
@[simp] theorem State.bump_mesh (s : State) : (s.bump).mesh = s.mesh := rfl
@[simp] theorem State.bump_inbound (s : State) : (s.bump).inbound = s.inbound := rfl
@[simp] theorem State.bump_air (s : State) : (s.bump).air = s.air := rfl
@[simp] theorem State.bump_phasers (s : State) : (s.bump).phasers = s.phasers := rfl
@[simp] theorem State.bump_moving (s : State) : (s.bump).moving = s.moving := rfl
@[simp] theorem State.bump_scrubs (s : State) : (s.bump).scrubs = s.scrubs := rfl
@[simp] theorem State.bump_keyDie (s : State) : (s.bump).keyDie = s.keyDie := rfl
@[simp] theorem State.bump_regPorts (s : State) : (s.bump).regPorts = s.regPorts := rfl
@[simp] theorem State.bump_farPorts (s : State) : (s.bump).farPorts = s.farPorts := rfl
@[simp] theorem State.bump_apart (s : State) : (s.bump).apart = s.apart := rfl
@[simp] theorem State.bump_replays (s : State) : (s.bump).replays = s.replays := rfl
@[simp] theorem State.bump_loopback (s : State) : (s.bump).loopback = s.loopback := rfl
@[simp] theorem State.bump_beacons (s : State) : (s.bump).beacons = s.beacons := rfl
@[simp] theorem State.bump_pairs (s : State) : (s.bump).pairs = s.pairs := rfl
@[simp] theorem State.bump_queues (s : State) : (s.bump).queues = s.queues := rfl
@[simp] theorem State.bump_lastQueues (s : State) : (s.bump).lastQueues = s.lastQueues := rfl
@[simp] theorem State.bump_firedAt (s : State) : (s.bump).firedAt = s.firedAt := rfl
@[simp] theorem State.bump_lsems (s : State) : (s.bump).lsems = s.lsems := rfl
@[simp] theorem State.bump_launches (s : State) : (s.bump).launches = s.launches := rfl
@[simp] theorem State.bump_master (s : State) : (s.bump).master = s.master := rfl
@[simp] theorem State.bump_outbox (s : State) : (s.bump).outbox = s.outbox := rfl
@[simp] theorem State.bump_messages (s : State) : (s.bump).messages = s.messages := rfl
@[simp] theorem State.bump_running (s : State) : (s.bump).running = s.running := rfl
@[simp] theorem State.bump_dropped (s : State) : (s.bump).dropped = s.dropped := rfl
@[simp] theorem State.bump_power (s : State) : (s.bump).power = s.power := rfl
@[simp] theorem State.bump_boot (s : State) : (s.bump).boot = s.boot := rfl
@[simp] theorem State.bump_places (s : State) : (s.bump).places = s.places := rfl
@[simp] theorem State.bump_stage (s : State) : (s.bump).stage = s.stage := rfl
@[simp] theorem State.bump_turn (s : State) : (s.bump).turn = s.turn := rfl
@[simp] theorem State.bump_agenda (s : State) : (s.bump).agenda = s.agenda := rfl
@[simp] theorem State.bump_inbox (s : State) : (s.bump).inbox = s.inbox := rfl
@[simp] theorem State.bump_focus (s : State) : (s.bump).focus = s.focus := rfl
@[simp] theorem State.bump_issue (s : State) : (s.bump).issue = s.issue := rfl
@[simp] theorem State.bump_free (s : State) : (s.bump).free = s.free := rfl
@[simp] theorem State.bump_torusX (s : State) : (s.bump).torusX = s.torusX := rfl
@[simp] theorem State.bump_torusY (s : State) : (s.bump).torusY = s.torusY := rfl
@[simp] theorem State.bump_torusZ (s : State) : (s.bump).torusZ = s.torusZ := rfl

/-! #### A context of a tile -/

@[simp] theorem Tile.setCtx_owner (x : Tile) (c : Nat) (k : Ctx) : (x.setCtx c k).owner = x.owner := rfl
@[simp] theorem Tile.setCtx_scratch (x : Tile) (c : Nat) (k : Ctx) : (x.setCtx c k).scratch = x.scratch := rfl
@[simp] theorem Tile.setCtx_om (x : Tile) (c : Nat) (k : Ctx) : (x.setCtx c k).om = x.om := rfl
@[simp] theorem Tile.setCtx_acc (x : Tile) (c : Nat) (k : Ctx) : (x.setCtx c k).acc = x.acc := rfl
@[simp] theorem Tile.setCtx_anchors (x : Tile) (c : Nat) (k : Ctx) : (x.setCtx c k).anchors = x.anchors := rfl
@[simp] theorem Tile.setCtx_claims (x : Tile) (c : Nat) (k : Ctx) : (x.setCtx c k).claims = x.claims := rfl
@[simp] theorem Tile.setCtx_pins (x : Tile) (c : Nat) (k : Ctx) : (x.setCtx c k).pins = x.pins := rfl
@[simp] theorem Tile.setCtx_set0 (x : Tile) (c : Nat) (k : Ctx) : (x.setCtx c k).set0 = x.set0 := rfl
@[simp] theorem Tile.setCtx_set1 (x : Tile) (c : Nat) (k : Ctx) : (x.setCtx c k).set1 = x.set1 := rfl
@[simp] theorem Tile.setCtx_loaders (x : Tile) (c : Nat) (k : Ctx) : (x.setCtx c k).loaders = x.loaders := rfl
@[simp] theorem Tile.setCtx_code (x : Tile) (c : Nat) (k : Ctx) : (x.setCtx c k).code = x.code := rfl
@[simp] theorem Tile.setCtx_codeBad (x : Tile) (c : Nat) (k : Ctx) : (x.setCtx c k).codeBad = x.codeBad := rfl
@[simp] theorem Tile.setCtx_dict (x : Tile) (c : Nat) (k : Ctx) : (x.setCtx c k).dict = x.dict := rfl
@[simp] theorem Tile.setCtx_dictBad (x : Tile) (c : Nat) (k : Ctx) : (x.setCtx c k).dictBad = x.dictBad := rfl
@[simp] theorem Tile.setCtx_sems (x : Tile) (c : Nat) (k : Ctx) : (x.setCtx c k).sems = x.sems := rfl
@[simp] theorem Tile.setCtx_mq (x : Tile) (c : Nat) (k : Ctx) : (x.setCtx c k).mq = x.mq := rfl
@[simp] theorem Tile.setCtx_xq (x : Tile) (c : Nat) (k : Ctx) : (x.setCtx c k).xq = x.xq := rfl
@[simp] theorem Tile.setCtx_fq (x : Tile) (c : Nat) (k : Ctx) : (x.setCtx c k).fq = x.fq := rfl
@[simp] theorem Tile.setCtx_mBeganAt (x : Tile) (c : Nat) (k : Ctx) : (x.setCtx c k).mBeganAt = x.mBeganAt := rfl
@[simp] theorem Tile.setCtx_beat (x : Tile) (c : Nat) (k : Ctx) : (x.setCtx c k).beat = x.beat := rfl
@[simp] theorem Tile.setCtx_fetch (x : Tile) (c : Nat) (k : Ctx) : (x.setCtx c k).fetch = x.fetch := rfl
@[simp] theorem Tile.setCtx_lastCh (x : Tile) (c : Nat) (k : Ctx) : (x.setCtx c k).lastCh = x.lastCh := rfl
@[simp] theorem Tile.setCtx_lastFetch (x : Tile) (c : Nat) (k : Ctx) : (x.setCtx c k).lastFetch = x.lastFetch := rfl
@[simp] theorem Tile.setCtx_channels (x : Tile) (c : Nat) (k : Ctx) : (x.setCtx c k).channels = x.channels := rfl
@[simp] theorem Tile.setCtx_tlb (x : Tile) (c : Nat) (k : Ctx) : (x.setCtx c k).tlb = x.tlb := rfl
@[simp] theorem Tile.setCtx_fifos (x : Tile) (c : Nat) (k : Ctx) : (x.setCtx c k).fifos = x.fifos := rfl
@[simp] theorem Tile.setCtx_overruns (x : Tile) (c : Nat) (k : Ctx) : (x.setCtx c k).overruns = x.overruns := rfl
@[simp] theorem Tile.setCtx_linkRes (x : Tile) (c : Nat) (k : Ctx) : (x.setCtx c k).linkRes = x.linkRes := rfl
@[simp] theorem Tile.setCtx_bankRes (x : Tile) (c : Nat) (k : Ctx) : (x.setCtx c k).bankRes = x.bankRes := rfl
@[simp] theorem Tile.setCtx_granted (x : Tile) (c : Nat) (k : Ctx) : (x.setCtx c k).granted = x.granted := rfl
@[simp] theorem Tile.setCtx_granteds (x : Tile) (c : Nat) (k : Ctx) : (x.setCtx c k).granteds = x.granteds := rfl
@[simp] theorem Tile.setCtx_quantum (x : Tile) (c : Nat) (k : Ctx) : (x.setCtx c k).quantum = x.quantum := rfl
@[simp] theorem Tile.setCtx_lastCtx (x : Tile) (c : Nat) (k : Ctx) : (x.setCtx c k).lastCtx = x.lastCtx := rfl
@[simp] theorem Tile.setCtx_heldAt (x : Tile) (c : Nat) (k : Ctx) : (x.setCtx c k).heldAt = x.heldAt := rfl
@[simp] theorem Tile.setCtx_tookAt (x : Tile) (c : Nat) (k : Ctx) : (x.setCtx c k).tookAt = x.tookAt := rfl
@[simp] theorem Tile.setCtx_yielded (x : Tile) (c : Nat) (k : Ctx) : (x.setCtx c k).yielded = x.yielded := rfl
@[simp] theorem Tile.setCtx_trapEntrySwitch (x : Tile) (c : Nat) (k : Ctx) : (x.setCtx c k).trapEntrySwitch = x.trapEntrySwitch := rfl
@[simp] theorem Tile.setCtx_lock (x : Tile) (c : Nat) (k : Ctx) : (x.setCtx c k).lock = x.lock := rfl

end Sys2Proof.Machine
end

