-- ==== Sys2Proof/Laws/Ops.lean ====
section
/-! SUPPORT. What the shared operations of a bundle do: recording a plan, committing it, finishing the bundle, taking a trap, and
`issueOp`, which calls them. -/

namespace Sys2Proof.Machine

/-! ### Frames that compose -/

theorem OnlyContext.refl (s : State) : OnlyContext s s := ⟨rfl, fun _ _ => rfl, rfl, fun _ _ => rfl⟩

/-- A change of the context in issue changes nothing else. -/
theorem OnlyContext.modCur (s : State) (f : Ctx → Ctx) : OnlyContext s (s.modCur f) where
  machine := rfl
  tiles n h := s.tile_modCtx_other _ _ h
  tile := by simp [State.modCur, Tile.lasting, State.curTile]
  ctxs c h := s.ctx_modCtx_other _ _ h

theorem OnlyContext.trans {s t u : State} (h : OnlyContext s t) (ht : t.issue.tile = s.issue.tile) (hc : t.issue.ctx = s.issue.ctx)
    (g : OnlyContext t u) : OnlyContext s u where
  machine := g.machine.trans h.machine
  tiles n hn := (g.tiles n (by rwa [ht])).trans (h.tiles n hn)
  tile := by
    have := g.tile
    rw [ht] at this
    exact this.trans (by rw [State.curTile, ht]; exact h.tile)
  ctxs c hc' := by
    have := g.ctxs c (by rwa [hc])
    rw [ht] at this
    exact this.trans (h.ctxs c hc')

/-- Two states that agree on everything but the record of the bundle and the next identity. -/
theorem OnlyContext.of_eq {s t : State} (ht : t.tiles = s.tiles) (hm : t.lasting = s.lasting) : OnlyContext s t where
  machine := hm
  tiles n _ := State.tile_of_tiles ht n
  tile := by rw [State.tile_of_tiles ht]; rfl
  ctxs c _ := by rw [State.ctx, State.tile_of_tiles ht]; rfl

/-! ### Landings -/

theorem addLandings_issue (ls : List (Nat × Landing)) (s : State) : (addLandings ls s).issue = s.issue := by
  induction ls generalizing s with
  | nil => rfl
  | cons l ls ih => exact (ih _).trans rfl

theorem addLandings_now (ls : List (Nat × Landing)) (s : State) : (addLandings ls s).now = s.now := by
  induction ls generalizing s with
  | nil => rfl
  | cons l ls ih => exact (ih _).trans rfl

theorem addLandings_only (ls : List (Nat × Landing)) (s : State) : OnlyContext s (addLandings ls s) := by
  induction ls generalizing s with
  | nil => exact .refl s
  | cons l ls ih =>
    have h : OnlyContext s s.bump := .of_eq rfl rfl
    exact (h.trans rfl rfl (.modCur s.bump _)).trans rfl rfl (ih _)

/-- Landings join the flight of the context in issue, with their identities, and leave the rest of it alone. -/
theorem addLandings_cur (ls : List (Nat × Landing)) (s : State) :
    (addLandings ls s).cur = { s.cur with inflight := s.cur.inflight ++ identified s.nextId (ls.map (·.2)) } := by
  induction ls generalizing s with
  | nil => simp [addLandings, identified]
  | cons l ls ih =>
    obtain ⟨n, l⟩ := l
    rw [addLandings, ih]
    simp [identified]

/-! ### The end of a bundle -/

theorem countLock_issue (s : State) : (countLock s).issue = s.issue := by
  unfold countLock; split
  · rfl
  · split
    · rfl
    · split <;> rfl

theorem Tile.endLock_lasting (x : Tile) (c n : Nat) : (x.endLock c n).lasting = x.lasting := by
  unfold Tile.endLock; split
  · split <;> rfl
  · rfl

theorem Tile.endLock_ctx (x : Tile) (c n d : Nat) : (x.endLock c n).ctx d = x.ctx d := by
  unfold Tile.endLock; split
  · split <;> rfl
  · rfl

/-- A change of the issuing tile that keeps its memories and contexts is none that a frame shows. -/
theorem OnlyContext.modCurTile {s : State} {f : Tile → Tile} (h1 : (f s.curTile).lasting = s.curTile.lasting)
    (h2 : ∀ c, (f s.curTile).ctx c = s.curTile.ctx c) : OnlyContext s (s.modCurTile f) where
  machine := rfl
  tiles n h := s.tile_modTile_other _ h
  tile := by rw [State.modCurTile, State.tile_modTile_same]; exact h1
  ctxs c _ := by rw [State.ctx, State.modCurTile, State.tile_modTile_same]; exact h2 c

theorem countLock_only (s : State) : OnlyContext s (countLock s) := by
  unfold countLock; split
  · exact .refl s
  · split
    · exact .refl s
    · split
      · exact (OnlyContext.modCurTile (f := fun x => x.endLock s.issue.ctx (s.now + 1)) (Tile.endLock_lasting ..)
          (fun _ => Tile.endLock_ctx ..)).trans rfl rfl (.modCur _ _)
      · exact .modCur _ _

/-- Counting a lock down changes nothing of the context but the count. -/
theorem countLock_cur (s : State) : ∃ l, (countLock s).cur = { s.cur with lockLeft := l } := by
  unfold countLock; split
  · exact ⟨s.cur.lockLeft, rfl⟩
  · split
    · exact ⟨s.cur.lockLeft, rfl⟩
    · split
      · refine ⟨none, ?_⟩
        rw [State.cur_modCur, State.cur_modCurTile (Tile.endLock_ctx ..)]
      · exact ⟨_, State.cur_modCur ..⟩

/-- What the end of a bundle does (05 R118, 11 R301): its landings fly, the macro PC goes on. -/
theorem finishBundle_went (s : State) (next : Nat) (hn : s.issue.target.getD s.issue.nextPc = next) :
    Went s (finishBundle s) (s.issue.lands.map (·.2)) next s.issue.nonRep := by
  have hi : (addLandings s.issue.lands s).issue = s.issue := addLandings_issue ..
  have hl := addLandings_cur s.issue.lands s
  have ho := addLandings_only s.issue.lands s
  unfold finishBundle
  simp only [hn]
  generalize addLandings s.issue.lands s = u at hi hl ho
  have hv := OnlyContext.trans ho (by rw [hi]) (by rw [hi]) (.modCur u (fun k =>
    { k.present with
      pc := BitVec.ofNat 17 next
      pcOver := decide (2 ^ 17 ≤ next)
      literalPaid := false
      walks := []
      blockedFor := 0
      nonRepeatable := k.nonRepeatable || u.issue.nonRep
      pendingStep := if u.issue.trapOpen then k.pendingStep else k.sstep }))
  generalize hw : (u.modCur _) = w at hv ⊢
  have hwi : w.issue = s.issue := by rw [← hw]; exact hi
  obtain ⟨l, hc⟩ := countLock_cur w
  have hwc : w.cur = _ := (congrArg State.cur hw).symm.trans (State.cur_modCur ..)
  have hcur : (countLock w).ctx s.issue.tile s.issue.ctx = (countLock w).cur := by
    rw [State.cur, countLock_issue, hwi]
  have hall := OnlyContext.trans hv (by rw [hwi]) (by rw [hwi]) (countLock_only w)
  constructor
  · exact hall
  all_goals rw [hcur, hc, hwc, hl, hi]
  all_goals rfl

/-! ### Lists of checks -/

@[simp] theorem failIf_false (k : Check) : failIf false k = [] := rfl
@[simp] theorem failIf_true (k : Check) : failIf true k = [k] := rfl
@[simp] theorem firstOf_nil : firstOf [] = [] := rfl
@[simp] theorem firstOf_pass (rest : List (List Check)) : firstOf ([] :: rest) = firstOf rest := rfl
@[simp] theorem firstOf_fail (k : Check) (ks : List Check) (rest : List (List Check)) : firstOf ((k :: ks) :: rest) = [k] := rfl

/-- The checks in order: the first that fails stands alone. -/
theorem firstOf_failIf (c : Bool) (k : Check) (rest : List (List Check)) :
    firstOf (failIf c k :: rest) = if c then [k] else firstOf rest := by cases c <;> rfl

/-! ### Judging -/

/-- A bundle of one operation reads its context as it stands. -/
theorem Opens.pre {s : State} (ho : Opens s) : s.pre = s.cur := by simp only [State.pre, ho.whole]

@[simp] theorem recordPlan_tiles (p : Plan) (s : State) : (recordPlan p s).tiles = s.tiles := rfl
theorem recordPlan_cur (p : Plan) (s : State) : (recordPlan p s).cur = s.cur := rfl
theorem recordPlan_now (p : Plan) (s : State) : (recordPlan p s).now = s.now := rfl

/-- The landings that a plan records. -/
def Plan.flights (p : Plan) (now : Nat) : List Landing :=
  p.results.map (Result.flight now) ++ p.freeResults.map (fun r => { r.flight now with free := true })
    ++ p.farResults.map fun r => { r.flight now with waits := true, nominal := some (now + r.lat) }

theorem Plan.landings_eq (p : Plan) (slot now : Nat) : p.landings slot now = (p.flights now).map fun l => (slot, l) := by
  simp only [Plan.landings, Plan.flights, List.map_append, List.map_map]
  rfl

/-- A plan keeps its own L and F slots and its own lock apart: it uses no bank for a fabric command, or none for an L-slot access and none of
the lock's for the command (08 R194, R195; 10 R266). -/
def Plan.banksApart (p : Plan) (s : State) : Prop := p.fabBanks = [] ∨ p.banks = [] ∧ ∀ r ∈ p.fabBanks, s.ownLock r.1 = false

/-- When nothing hinders the bundle, what fails is what the plan itself finds. -/
theorem allFails_record {p : Plan} {s : State} (ho : Opens s) (hu : Unhindered s (p.flights s.now) p.banks) (hb : p.banksApart s) :
    (recordPlan p s).allFails =
      p.checks.map fun k => { phase := k.phase, slot := s.issue.slot, kind := k.kind, effect := k.effect } := by
  have h1 : (recordPlan p s).issue.fails =
      p.checks.map fun k => { phase := k.phase, slot := s.issue.slot, kind := k.kind, effect := k.effect } := by
    simp [recordPlan, State.modIssue, ho.fails]
  have hlands : (recordPlan p s).issue.lands = (p.flights s.now).map fun l => (s.issue.slot, l) := by
    simp [recordPlan, State.modIssue, ho.lands, Plan.landings_eq]
  have h2 : (recordPlan p s).touchesHeld = false := by
    simp only [State.touchesHeld, recordPlan_cur, recordPlan_now, List.any_eq_false]
    intro r hr
    obtain ⟨ha, ht, hl⟩ := hu.held r hr
    have hp : (recordPlan p s).issue.hdr.ports = s.issue.hdr.ports := rfl
    have htd : (recordPlan p s).issue.td = s.issue.td := rfl
    rw [hp, htd, hlands]
    simp only [Bool.or_eq_true, List.any_eq_true, beq_iff_eq, List.mem_map, not_or]
    refine ⟨⟨fun ⟨x, hx, e⟩ => ha x hx e, ht⟩, ?_⟩
    rintro ⟨x, ⟨l, hl', rfl⟩, e⟩
    exact hl l hl' e
  have h3 : portFails (recordPlan p s).cur.inflight (recordPlan p s).issue.lands = [] := by
    rw [hlands]; exact hu.ports
  have hbs : (recordPlan p s).issue.banks = p.banks := by simp [recordPlan, State.modIssue, ho.banks]
  have hfb : (recordPlan p s).issue.fabBanks = p.fabBanks := by simp [recordPlan, State.modIssue, ho.fabBanks]
  have hown : ∀ b, (recordPlan p s).ownLock b = s.ownLock b := fun _ => rfl
  have h4 : (recordPlan p s).bankFails = [] := by
    unfold State.bankFails
    rw [if_neg]
    rw [hbs, hfb]
    rcases hb with hb | ⟨hb, -⟩
    · simp only [hb, List.nil_append, List.any_eq_true, not_exists]
      rintro b ⟨hbm, hx⟩
      obtain ⟨h1, h2⟩ := hu.banks b hbm
      simp only [List.contains_iff_mem, List.map_append, List.mem_append, List.mem_map, List.mem_filter, Prod.exists,
        exists_and_right, exists_eq_right] at hx
      rcases hx with ⟨c, hc, he⟩ | ⟨c, hc, he⟩
      · obtain rfl := beq_iff_eq.mp he
        exact h1 hc
      · rw [Bool.and_eq_true] at he
        obtain rfl := beq_iff_eq.mp he.1
        have hk : s.ownLock b = true := by
          obtain ⟨hk, hk' | hk'⟩ := h2 hc <;> simp [State.ownLock, hk, ← hk']
        rw [hown, hk] at he
        exact absurd he.2 (by decide)
    · simp [hb]
  have h6 : (recordPlan p s).lockFails = [] := by
    unfold State.lockFails
    rw [if_neg]
    rw [hfb]
    rcases hb with hb | ⟨-, hb⟩
    · simp [hb]
    · simp only [List.any_eq_true, not_exists]
      rintro r ⟨hr, hx⟩
      simp [hown, hb r hr] at hx
  have h5 : (recordPlan p s).fenceFails = [] := ho.fenced
  simp [State.allFails, h1, h2, h3, h4, h5, h6]

/-- What keeps results from flying is their registers and cycles, not their values. -/
def Landing.shape (l : Landing) : Bool × Option (Nat × Nat) × Nat × Bool := (l.free, l.dest.key, l.due, l.dest.isScalar)

theorem clashes_congr {os ps : List Landing} {l m : Landing} (h : os.map Landing.shape = ps.map Landing.shape)
    (hl : l.shape = m.shape) : clashes os l = clashes ps m := by
  simp only [Landing.shape, Prod.mk.injEq] at hl
  obtain ⟨h1, h2, h3, h4⟩ := hl
  have key : ∀ {os ps : List Landing}, os.map Landing.shape = ps.map Landing.shape →
      (os.any fun o => o.exposed && o.due == l.due && o.dest.key == l.dest.key) =
        (ps.any fun o => o.exposed && o.due == l.due && o.dest.key == l.dest.key) ∧
      (os.filter fun o => o.exposed && o.due == l.due && o.dest.isScalar).length =
        (ps.filter fun o => o.exposed && o.due == l.due && o.dest.isScalar).length := by
    intro os
    induction os with
    | nil => intro ps h; cases ps with
      | nil => exact ⟨rfl, rfl⟩
      | cons _ _ => simp at h
    | cons o os ih => intro ps h; cases ps with
      | nil => simp at h
      | cons q ps =>
        simp only [List.map_cons, List.cons.injEq, Landing.shape, Prod.mk.injEq] at h
        obtain ⟨⟨g1, g2, g3, g4⟩, h⟩ := h
        obtain ⟨i1, i2⟩ := ih h
        have he : o.exposed = q.exposed := by simp [Landing.exposed, g1, g2]
        constructor
        · simp only [List.any_cons, i1, he, g2, g3]
        · simp only [List.filter_cons, he, g3, g4]; split <;> simp [i2]
  obtain ⟨k1, k2⟩ := key h
  have he : l.exposed = m.exposed := by simp [Landing.exposed, h1, h2]
  rw [h2, h3] at k1
  rw [h3] at k2
  simp only [clashes, k1, k2, he, h2, h3, h4]

theorem portFails_congr {os ps : List Landing} {ls ms : List (Nat × Landing)} (h : os.map Landing.shape = ps.map Landing.shape)
    (hl : ls.map (fun e => (e.1, e.2.shape)) = ms.map fun e => (e.1, e.2.shape)) : portFails os ls = portFails ps ms := by
  induction ls generalizing os ps ms with
  | nil => cases ms with
    | nil => rfl
    | cons _ _ => simp at hl
  | cons l ls ih => cases ms with
    | nil => simp at hl
    | cons m ms =>
      obtain ⟨n, l⟩ := l
      obtain ⟨n', m⟩ := m
      simp only [List.map_cons, List.cons.injEq, Prod.mk.injEq] at hl
      obtain ⟨⟨rfl, hs⟩, hl⟩ := hl
      simp only [portFails, clashes_congr h hs]
      rw [ih (ps := m :: ps) (by simp [h, hs]) hl]

theorem Unhindered.congr {s : State} {ls ms : List Landing} {banks : List Nat} (h : Unhindered s ls banks)
    (hl : ls.map Landing.shape = ms.map Landing.shape) : Unhindered s ms banks where
  held r hr := by
    obtain ⟨h1, ht, h2⟩ := h.held r hr
    refine ⟨h1, ht, fun m hm => ?_⟩
    have : m.shape ∈ ls.map Landing.shape := by rw [hl]; exact List.mem_map_of_mem hm
    obtain ⟨l, hl', he⟩ := List.mem_map.mp this
    have hk : l.dest.key = m.dest.key := congrArg (fun x => x.2.1) he
    rw [← hk]
    exact h2 l hl'
  ports := by
    rw [← h.ports]
    refine portFails_congr rfl ?_
    have : ∀ {as bs : List Landing}, as.map Landing.shape = bs.map Landing.shape →
        (as.map fun l => (s.issue.slot, l)).map (fun e => (e.1, e.2.shape)) =
          (bs.map fun l => (s.issue.slot, l)).map fun e => (e.1, e.2.shape) := by
      intro as bs h
      simpa [List.map_map, Function.comp_def] using congrArg (List.map (Prod.mk s.issue.slot)) h
    exact (this hl).symm
  banks := h.banks

/-- No failing check is left when the plan has none and nothing hinders the bundle. -/
theorem firstFail_record {p : Plan} {s : State} (ho : Opens s) (hc : p.checks = [])
    (hu : Unhindered s (p.flights s.now) p.banks) (hb : p.banksApart s) :
    firstFail (recordPlan p s).allFails = none := by
  rw [allFails_record ho hu hb, hc]
  rfl

/-- What a plan does at commit, apart from the record of the bundle: it comes to `u`, with the landings `ls`, whatever the record
holds. -/
def Plan.doing (p : Plan) (s u : State) (ls : List Landing) : Prop :=
  p.act (recordPlan p s) =
    ({ u with issue := { (recordPlan p s).issue with lands := ls.map fun l => (s.issue.slot, l) } } : State) ∧ u.issue = s.issue

/-- A plan whose effect reads nothing of the record does it, and lands what it recorded. -/
theorem Plan.doing_plain {p : Plan} {s : State} (ho : Opens s)
    (h : p.act (recordPlan p s) = ({ p.act s with issue := (recordPlan p s).issue } : State)) (hi : (p.act s).issue = s.issue) :
    p.doing s (p.act s) (p.flights s.now) := by
  refine ⟨h.trans ?_, hi⟩
  have : (recordPlan p s).issue.lands = (p.flights s.now).map fun l => (s.issue.slot, l) := by
    simp [recordPlan, State.modIssue, ho.lands, Plan.landings_eq]
  rw [← this]

theorem Plan.doing_id {p : Plan} {s : State} (ho : Opens s) (h : p.act = id) : p.doing s s (p.flights s.now) := by
  have := Plan.doing_plain (p := p) ho (by rw [h]; rfl) (by rw [h]; rfl)
  rwa [h] at this

/-- What `issueOp` does with a plan that fails no check: its effect happens, its results fly, the context goes on. -/
theorem issueOp_went {p : State → Plan} {s u : State} (ho : Opens s) (hc : (p s).checks = [])
    (hu : Unhindered s ((p s).flights s.now) (p s).banks) (hb : (p s).banksApart s) {ls : List Landing}
    (hact : (p s).doing s u ls) {next : Nat} (hnext : (p s).target.getD s.issue.nextPc = next) :
    ∃ t, issueOp p s = .next t ∧ Went u t ls next (p s).nonRep := by
  refine ⟨finishBundle (commitPlan (p s) (recordPlan (p s) s)), ?_, ?_⟩
  · simp only [issueOp, ho.whole, settle, firstFail_record ho hc hu hb]
  · obtain ⟨h1, h2⟩ := hact
    have hi : (commitPlan (p s) (recordPlan (p s) s)).issue =
        { (recordPlan (p s) s).issue with
          lands := ls.map fun l => (s.issue.slot, l), target := (p s).target, nonRep := (p s).nonRep } := by
      simp only [commitPlan, State.modIssue, h1]
      simp [recordPlan, State.modIssue, ho.target, ho.nonRep]
    have hlands : (commitPlan (p s) (recordPlan (p s) s)).issue.lands.map (·.2) = ls := by
      rw [hi]
      simp
    have hw := finishBundle_went (commitPlan (p s) (recordPlan (p s) s)) next (by rw [hi]; exact hnext)
    rw [hlands] at hw
    have hn : (commitPlan (p s) (recordPlan (p s) s)).issue.nonRep = (p s).nonRep := by rw [hi]
    rw [hn] at hw
    have hs : commitPlan (p s) (recordPlan (p s) s) = { u with issue := (commitPlan (p s) (recordPlan (p s) s)).issue } := by
      simp only [commitPlan, State.modIssue, h1]
    generalize commitPlan (p s) (recordPlan (p s) s) = v at *
    have ht : v.issue.tile = u.issue.tile := by rw [hi, h2]; rfl
    have hcx : v.issue.ctx = u.issue.ctx := by rw [hi, h2]; rfl
    have hto : v.tiles = u.tiles := by rw [hs]
    have hcur : v.cur = u.cur := by rw [State.cur, State.cur, ht, hcx, State.ctx, State.tile_of_tiles hto]; rfl
    have hid : v.nextId = u.nextId := by rw [hs]
    constructor
    · constructor
      · rw [hw.machine, hs]; rfl
      · intro n hn'; rw [hw.tiles n (by rw [ht]; exact hn'), State.tile_of_tiles hto]
      · rw [← ht, hw.tile, State.curTile, ht, State.tile_of_tiles hto]; rfl
      · intro c hc'; rw [← ht, hw.ctxs c (by rw [hcx]; exact hc'), State.ctx, State.tile_of_tiles hto]; rfl
    all_goals rw [← ht, ← hcx]
    · rw [hw.ctx, hcur]
    · exact hw.pc
    · exact hw.pcOver
    · rw [hw.inflight, hcur, hid]
    · rw [hw.repeatable, hcur]

theorem Plan.flights_plain {q : Plan} (h1 : q.freeResults = []) (h2 : q.farResults = []) (now : Nat) :
    q.flights now = q.results.map (Result.flight now) := by simp [Plan.flights, h1, h2]

/-- The same of a plan that is known, has plain results only, and whose effect reads nothing of the record. -/
theorem issueOp_acts {p : State → Plan} {s : State} {q : Plan} (ho : Opens s) (hp : p s = q) (hc : q.checks = [])
    (hu : Unhindered s (q.results.map (Result.flight s.now)) q.banks) (h1 : q.freeResults = []) (h2 : q.farResults = [])
    (hb : q.fabBanks = []) (ha : q.act (recordPlan q s) = ({ q.act s with issue := (recordPlan q s).issue } : State))
    (hi : (q.act s).issue = s.issue) :
    ∃ t, issueOp p s = .next t ∧
      Went (q.act s) t (q.results.map (Result.flight s.now)) (q.target.getD s.issue.nextPc) q.nonRep := by
  subst hp
  rw [← Plan.flights_plain h1 h2] at hu ⊢
  exact issueOp_went ho hc hu (.inl hb) (Plan.doing_plain ho ha hi) rfl

/-- What `issueOp` does with a plan that only lands results: they fly, and the context goes on. -/
theorem issueOp_issued {p : State → Plan} {s : State} (ho : Opens s) {rs : List Result} (hp : p s = { results := rs })
    (hu : Unhindered s (rs.map (Result.flight s.now)) []) : ∃ t, issueOp p s = .next t ∧ Issued s t rs := by
  have hf : (p s).flights s.now = rs.map (Result.flight s.now) := by simp [hp, Plan.flights]
  obtain ⟨t, h, hw⟩ := issueOp_went ho (p := p) (by rw [hp]) (by rw [hf, hp]; exact hu) (.inl (by rw [hp]))
    (hf ▸ Plan.doing_id ho (by rw [hp])) (next := s.issue.nextPc) (by rw [hp]; rfl)
  rw [hp] at hw
  exact ⟨t, h, hw⟩

/-! ### Bundles that do not go -/

/-- A precise trap of the bundle in issue: nothing but the trap is recorded (13 R345). -/
theorem trapNow_trapped {s u : State} {cause : Nat} {addr : Word} (hi : u.issue.tile = s.issue.tile) (hc : u.issue.ctx = s.issue.ctx)
    (hp : u.issue.pc = s.issue.pc) (ht : u.tiles = s.tiles) (hd : u.dies = s.dies) (hm : u.lasting = s.lasting) :
    Trapped s (trapNow s.issue.slot .precise cause addr 0 u) cause addr := by
  have hu : OnlyContext s u := .of_eq ht hm
  have hcur : u.cur = s.cur := by rw [State.cur, State.cur, hi, hc, State.ctx, State.tile_of_tiles ht]; rfl
  have hnow : u.now = s.now := by rw [State.now, State.now, hi, State.tickOf_of_dies hd]
  simp only [trapNow, raiseTrap]
  have h1 : OnlyContext u (u.modCurTile fun x => x.endLock u.issue.ctx u.now) :=
    .modCurTile (Tile.endLock_lasting ..) (fun _ => Tile.endLock_ctx ..)
  generalize hv : (u.modCurTile fun x => x.endLock u.issue.ctx u.now) = v at h1
  have hvi : v.issue = u.issue := by rw [← hv]; rfl
  have hvc : v.cur = s.cur := by rw [← hv, State.cur_modCurTile (Tile.endLock_ctx ..), hcur]
  have hve : u.modTile u.issue.tile (fun x => x.endLock u.issue.ctx (u.tickOf u.issue.tile)) = v := hv
  rw [hve]
  have h2 := fun f => OnlyContext.trans (hu.trans hi hc h1) (by rw [hvi, hi]) (by rw [hvi, hc]) (.modCur v f)
  have h3 : v.modCtx u.issue.tile u.issue.ctx = v.modCur := by rw [← hvi]; rfl
  rw [h3]
  have h4 : ∀ f, (v.modCur f).ctx s.issue.tile s.issue.ctx = f s.cur := by
    intro f
    rw [← hi, ← hc, ← hvi, ← hvc]
    exact v.cur_modCur f
  refine ⟨h2 _, ?_, ?_, ?_, ?_⟩
  all_goals rw [h4]
  · rfl
  · have : u.tickOf u.issue.tile = s.now := hnow
    simp only [this, hp]
    rfl

/-- What `issueOp` does with a plan whose one failing check is a precise trap. -/
theorem issueOp_trapped {p : State → Plan} {s : State} {q : Plan} (ho : Opens s) (hp : p s = q) {cause : Nat} {addr : Word} {ph : Nat}
    (hc : q.checks = [trapCheck cause addr ph]) (hu : Unhindered s (q.results.map (Result.flight s.now)) q.banks)
    (h1 : q.freeResults = []) (h2 : q.farResults = []) (hb : q.fabBanks = []) :
    ∃ t, issueOp p s = .next t ∧ Trapped s t cause addr := by
  subst hp
  rw [← Plan.flights_plain h1 h2] at hu
  refine ⟨_, ?_, trapNow_trapped (u := recordPlan (p s) s) rfl rfl rfl rfl rfl rfl⟩
  simp only [issueOp, ho.whole, settle, allFails_record ho hu (.inl hb), hc, List.map, trapCheck, firstFail, takeFail, applyEffect]

/-- What `issueOp` does with a plan whose one failing check is a hold without an effect, outside a lock and a fixed-time region. -/
theorem issueOp_held {p : State → Plan} {s : State} {q : Plan} (ho : Opens s) (hp : p s = q) {why : BlockCause}
    {reason port detail ph : Nat} (hc : q.checks = [holdCheck why reason port detail .none ph])
    (hu : Unhindered s (q.results.map (Result.flight s.now)) q.banks) (h1 : q.freeResults = []) (h2 : q.farResults = [])
    (hb : q.fabBanks = []) (hl : s.cur.lockLeft = none) (hf : s.cur.inFtr = false) :
    ∃ t, issueOp p s = .next t ∧ Held s t why := by
  subst hp
  rw [← Plan.flights_plain h1 h2] at hu
  refine ⟨(recordPlan (p s) s).modCur fun k => { k with st := .blocked why }, ?_, ?_⟩
  · simp only [issueOp, ho.whole, settle, allFails_record ho hu (.inl hb), hc, List.map, holdCheck, firstFail, takeFail, applyEffect,
      recordPlan_cur, hl, hf, Option.isSome_none, Bool.false_eq_true, if_false]
  · have h : OnlyContext s (recordPlan (p s) s) := .of_eq rfl rfl
    refine ⟨h.trans rfl rfl (.modCur _ _), ?_, ?_⟩
    · exact State.cur_modCur (recordPlan (p s) s) _
    · exact (congrArg Tile.lock (State.tile_modCtx_same (recordPlan (p s) s) ..)).trans rfl

/-- What `issueOp` does with a plan that fails one check: what `takeFail` makes of it. -/
theorem issueOp_fails {p : State → Plan} {s : State} {q : Plan} (ho : Opens s) (hp : p s = q) {k : Check} (hc : q.checks = [k])
    (hu : Unhindered s (q.flights s.now) q.banks) (hb : q.fabBanks = []) :
    issueOp p s = .next (takeFail { phase := k.phase, slot := s.issue.slot, kind := k.kind, effect := k.effect } (recordPlan q s)) := by
  subst hp
  simp only [issueOp, ho.whole, settle, allFails_record ho hu (.inl hb), hc, List.map, firstFail]

/-! ### Guards -/

/-- Without vector groups, a guarded plan is the plan, or nothing (02 R40). -/
theorem guarded_nil (s : State) (g : BitVec 4) (gn : BitVec 1) (p : Plan) :
    guarded s g gn [] p = if s.guard g gn then p else {} := by
  unfold guarded
  split <;> rfl

theorem guarded_true {s : State} {g : BitVec 4} {gn : BitVec 1} {p : Plan} (h : s.guard g gn = true) : guarded s g gn [] p = p := by
  rw [guarded_nil, if_pos h]

/-- A guarded plan whose guard is false has no effect, apart from its group checks (02 R40, R46). -/
theorem guarded_false {s : State} {g : BitVec 4} {gn : BitVec 1} {p : Plan} (h : s.guard g gn = false) : guarded s g gn [] p = {} := by
  rw [guarded_nil, h]; rfl

end Sys2Proof.Machine
end

