-- ==== Sys2Proof/Laws/Cross.lean ====
section
/-! SUPPORT. The X slot: what its plans come to, and a far acquire that departs or ends in a trap. -/

namespace Sys2Proof.Machine

/-! ### Acceptance -/

theorem fullCheck_nil {s : State} {ch : Nat} (h : (s.curTile.xq.filter fun y => y.ch == ch).length < 4) : fullCheck s ch = [] := by
  simp only [fullCheck, Tile.channelFull, failIf, decide_eq_true_eq, ite_eq_right_iff]
  omega

/-- An X form that fails no check is accepted: its command stands at the end of the tile's queue. -/
theorem accept_went {p : State → Plan} {s : State} {q : Plan} {x : XCmd} (ho : Opens s) (hu : Unhindered s [] []) (hp : p s = q)
    (hc : q.checks = []) (hr : q.results = []) (hf : q.freeResults = []) (hg : q.farResults = []) (hb : q.banks = [])
    (hfb : q.fabBanks = []) (ht : q.target = none)
    (ha : q.act (recordPlan q s) = ({ q.act s with issue := (recordPlan q s).issue } : State)) (hx : q.act s = s.acceptX x) :
    ∃ t, issueOp p s = .next t ∧
      Went { (s.modCurTile fun y => { y with xq := y.xq ++ [x] }) with nextId := s.nextId + 1 } t [] s.issue.nextPc q.nonRep := by
  have h := issueOp_acts ho hp hc (by rw [hr, hb]; exact hu) hf hg hfb ha (by rw [hx]; rfl)
  rw [hr, ht, hx] at h
  exact h

/-- The plan of an access to a sheet that acquires nothing (09 R237). -/
theorem smPlan_near {s : State} {f : XSlot} {x : XCmd} {addr : Word} {checks : List (List Check)} {nonRep : Bool} (h : x.ord % 2 ≠ 1) :
    smPlan s f x addr checks nonRep =
      { checks := firstOf (checks ++ endChecks s f)
        nonRep := nonRep
        act := fun s => s.acceptX { x with head := s.mkHead 6 f.sy.toNat } } := by
  simp only [smPlan, h, if_false]

theorem smPlan_far {s : State} {f : XSlot} {x : XCmd} {addr : Word} {checks : List (List Check)} {nonRep : Bool} (h : x.ord % 2 = 1) :
    smPlan s f x addr checks nonRep = smFar s f x addr checks nonRep := by
  simp only [smPlan, h, if_true]

/-! ### Far acquires -/

/-- A far acquire that departs: its command is accepted and its context is Blocked (09 R235). -/
theorem issueOp_farAccept {p : State → Plan} {s : State} {q : Plan} (ho : Opens s) (hp : p s = q) {why : BlockCause}
    {reason port detail ph : Nat} {x : XCmd} (hc : q.checks = [holdCheck why reason port detail (.farAccept x) ph])
    (hu : Unhindered s (q.flights s.now) q.banks) (hb : q.fabBanks = []) (hl : s.cur.lockLeft = none) (hf : s.cur.inFtr = false) :
    ∃ t, issueOp p s = .next t ∧
      OnlyContext (s.modCurTile fun y => { y with xq := y.xq ++ [{ x with head := { x.head with id := s.nextId } }] }) t ∧
      t.ctx s.issue.tile s.issue.ctx = { s.cur with farAcq := some { id := s.nextId, pc := s.cur.pc }, nonRepeatable := (s.cur.nonRepeatable || x.op.nonRepeatable), st := .blocked why } := by
  refine ⟨(applyEffect s.issue.tile s.issue.ctx (.farAccept x) (recordPlan q s)).modCur fun k => { k with st := .blocked why }, ?_, ?_⟩
  · rw [issueOp_fails ho hp hc hu hb]
    simp only [holdCheck, takeFail, recordPlan_cur, hl, hf, Option.isSome_none, Bool.false_eq_true, if_false]
    rfl
  constructor
  · refine OnlyContext.trans (t := s.modCurTile fun y => { y with xq := y.xq ++ [{ x with head := { x.head with id := s.nextId } }] })
      (OnlyContext.refl _) rfl rfl ?_
    refine OnlyContext.trans (t := (recordPlan q s).bump.modTile s.issue.tile fun y =>
      { y with xq := y.xq ++ [{ x with head := { x.head with id := s.nextId } }] }) (.of_eq rfl rfl) rfl rfl ?_
    refine OnlyContext.trans (.modCur _ fun k => { k with farAcq := some { id := s.nextId, pc := k.pc }, nonRepeatable := (k.nonRepeatable || x.op.nonRepeatable) }) rfl rfl ?_
    exact .modCur _ _
  · have h1 : ((recordPlan q s).bump.modTile s.issue.tile fun y =>
        { y with xq := y.xq ++ [{ x with head := { x.head with id := s.nextId } }] }).cur = s.cur :=
      State.cur_modCurTile (s := (recordPlan q s).bump) rfl
    have h2 := State.cur_modCur ((recordPlan q s).bump.modTile s.issue.tile fun y =>
      { y with xq := y.xq ++ [{ x with head := { x.head with id := s.nextId } }] })
      fun k => { k with farAcq := some { id := s.nextId, pc := k.pc }, nonRepeatable := (k.nonRepeatable || x.op.nonRepeatable) }
    rw [h1] at h2
    have h3 := State.cur_modCur (((recordPlan q s).bump.modTile s.issue.tile fun y =>
      { y with xq := y.xq ++ [{ x with head := { x.head with id := s.nextId } }] }).modCur
      fun k => { k with farAcq := some { id := s.nextId, pc := k.pc }, nonRepeatable := (k.nonRepeatable || x.op.nonRepeatable) }) fun k => { k with st := .blocked why }
    rw [h2] at h3
    exact h3

end Sys2Proof.Machine
end

