-- ==== Sys2Proof/Laws/Engines.lean ====
section
/-! SUPPORT. What an access to HBM tells a BURNISH that was alone, and what becomes of a context's requests on the mesh. -/

namespace Sys2Proof.Machine

/-- The one thing `hbmUsed` changes, of one command. -/
def XCmd.disturbed (n : Nat) (x : XCmd) : XCmd := if x.aloneBut n then { x with alone := false } else x

theorem XCmd.disturbed_of_alone (n : Nat) {x : XCmd} (h : x.aloneBut n = false) : x.disturbed n = x := by
  simp [XCmd.disturbed, h]

/-- A map over the entries of a table commutes with a lookup. -/
theorem get?_mapVals {α : Type} (m : FMap α) (f : α → α) (i : Nat) :
    FMap.get? (m.map fun e => (e.1, f e.2)) i = (FMap.get? m i).map f := by
  induction m with
  | nil => rfl
  | cons e m ih =>
    rw [List.map_cons, FMap.get?_cons, ih, FMap.get?_cons]
    split <;> rfl

/-- Nothing but the tiles' X queues changes. -/
theorem hbmUsed_frame (s : State) (n : Nat) : s.hbmUsed n = { s with tiles := (s.hbmUsed n).tiles } := by
  unfold State.hbmUsed
  split <;> rfl

/-- A tile whose BURNISH commands that command n disturbs are alone no more. -/
def Tile.disturbed (n : Nat) (x : Tile) : Tile := { x with xq := x.xq.map (XCmd.disturbed n) }

theorem Tile.disturbed_of_alone (n : Nat) {x : Tile} (h : ∀ z ∈ x.xq, z.aloneBut n = false) : x.disturbed n = x := by
  rw [Tile.disturbed, List.map_congr_left fun z hz => XCmd.disturbed_of_alone n (h z hz), List.map_id']

theorem hbmUsed_of_any {s : State} {n : Nat} (h : (s.tiles.any fun e => e.2.xq.any fun x => x.aloneBut n) = true) :
    (s.hbmUsed n).tiles = s.tiles.map fun e => (e.1, e.2.disturbed n) := by
  rw [State.hbmUsed, if_pos h]
  rfl

theorem hbmUsed_of_none {s : State} {n : Nat} (h : (s.tiles.any fun e => e.2.xq.any fun x => x.aloneBut n) = false) : s.hbmUsed n = s := by
  rw [State.hbmUsed, if_neg (by simp [h])]

/-- Every tile after an access by command n: each other BURNISH is alone no more. -/
theorem hbmUsed_tile (s : State) (n t : Nat) : (s.hbmUsed n).tile t = (s.tile t).disturbed n := by
  unfold State.tile FMap.getD
  cases h : s.tiles.any fun e => e.2.xq.any fun x => x.aloneBut n with
  | true =>
    rw [hbmUsed_of_any h, get?_mapVals]
    cases FMap.get? s.tiles t <;> rfl
  | false =>
    rw [hbmUsed_of_none h, Tile.disturbed_of_alone]
    cases hg : FMap.get? s.tiles t with
    | none => simp [Tile.fresh]
    | some x => exact fun z hz => by simpa using List.any_eq_false.mp (by simpa using List.any_eq_false.mp h _ (FMap.mem_of_get? hg)) z hz

@[simp] theorem hbmUsed_ctx (s : State) (n t c : Nat) : (s.hbmUsed n).ctx t c = s.ctx t c := by
  unfold State.ctx
  rw [hbmUsed_tile]
  rfl

@[simp] theorem hbmUsed_die (s : State) (n d : Nat) : (s.hbmUsed n).die d = s.die d := by
  rw [hbmUsed_frame]
  rfl

/-- An access to other memory than HBM disturbs no BURNISH. -/
theorem noteAccess_other (s : State) (n : Nat) {segs : List Seg} (h : segs.any Seg.inHbm = false) : s.noteAccess n segs = s := by
  simp [State.noteAccess, h]

/-- With no request of the context on the mesh there is nothing to perform. -/
theorem settleMesh_nil {s : State} (h : s.ownMesh = []) : s.settleMesh = s := by
  rw [State.settleMesh, h]
  rfl

end Sys2Proof.Machine
end

