-- ==== Sys2Proof/Laws/Mem.lean ====
section
/-! SUPPORT. Lemmas of the byte memories: a read after a write, what a write leaves alone, and the canonical form that every memory
operation keeps. -/

namespace Sys2Proof.Machine

open FMap

/-! ### One byte -/

theorem Mem.byteAt_writeByte (m : Mem) (a b : Nat) (x : Byte) (p : Bool) :
    (m.writeByte a x p).byteAt b = if a = b then x else m.byteAt b := by
  simp [Mem.byteAt, Mem.writeByte, getD_setD]

theorem Mem.poisonAt_writeByte (m : Mem) (a b : Nat) (x : Byte) (p : Bool) :
    (m.writeByte a x p).poisonAt b = if a = b then p else m.poisonAt b := by
  simp only [Mem.poisonAt, Mem.writeByte]
  cases p <;> simp only [Bool.false_eq_true, if_false, if_true, get?_erase, get?_insert] <;> split <;> rfl

/-! ### Runs of bytes -/

/-- A write leaves every byte outside its run alone. -/
theorem Mem.byteAt_write_outside {m : Mem} {a b : Nat} {l : List (Byte × Bool)} (h : b < a ∨ a + l.length ≤ b) :
    (m.write a l).byteAt b = m.byteAt b := by
  induction l generalizing m a with
  | nil => rfl
  | cons x l ih =>
    simp only [List.length_cons] at h
    rw [Mem.write, ih (by omega), Mem.byteAt_writeByte, if_neg (by omega)]

theorem Mem.poisonAt_write_outside {m : Mem} {a b : Nat} {l : List (Byte × Bool)} (h : b < a ∨ a + l.length ≤ b) :
    (m.write a l).poisonAt b = m.poisonAt b := by
  induction l generalizing m a with
  | nil => rfl
  | cons x l ih =>
    simp only [List.length_cons] at h
    rw [Mem.write, ih (by omega), Mem.poisonAt_writeByte, if_neg (by omega)]

/-- A byte of the run reads as written. -/
theorem Mem.byteAt_write_inside {m : Mem} {a i : Nat} {l : List (Byte × Bool)} (h : i < l.length) :
    (m.write a l).byteAt (a + i) = (l[i]).1 := by
  induction l generalizing m a i with
  | nil => simp at h
  | cons x l ih =>
    cases i with
    | zero => rw [Mem.write, Mem.byteAt_write_outside (.inl (by omega)), Mem.byteAt_writeByte]; simp
    | succ i =>
      have := ih (m := m.writeByte a x.1 x.2) (a := a + 1) (i := i) (by simpa using h)
      rw [Mem.write, show a + (i + 1) = a + 1 + i by omega, this]; rfl

theorem Mem.poisonAt_write_inside {m : Mem} {a i : Nat} {l : List (Byte × Bool)} (h : i < l.length) :
    (m.write a l).poisonAt (a + i) = (l[i]).2 := by
  induction l generalizing m a i with
  | nil => simp at h
  | cons x l ih =>
    cases i with
    | zero => rw [Mem.write, Mem.poisonAt_write_outside (.inl (by omega)), Mem.poisonAt_writeByte]; simp
    | succ i =>
      have := ih (m := m.writeByte a x.1 x.2) (a := a + 1) (i := i) (by simpa using h)
      rw [Mem.write, show a + (i + 1) = a + 1 + i by omega, this]; rfl

@[simp] theorem valBytes_length (n x : Nat) (p : Bool) : (valBytes n x p).length = n := by
  have : ∀ n x, (toBytes n x).length = n := by
    intro n
    induction n with
    | zero => intro x; rfl
    | succ n ih => intro x; simp [toBytes, ih]
  simp [valBytes, this]

@[simp] theorem rangeFrom_length (a n : Nat) : (rangeFrom a n).length = n := by
  induction n generalizing a with
  | zero => rfl
  | succ n ih => simp [rangeFrom, ih]

theorem mem_rangeFrom {a n x : Nat} : x ∈ rangeFrom a n ↔ a ≤ x ∧ x < a + n := by
  induction n generalizing a with
  | zero => simp [rangeFrom]
  | succ n ih => simp only [rangeFrom, List.mem_cons, ih]; omega

/-! ### The canonical form -/

theorem Mem.wf_iff (m : Mem) :
    m.wf = true ↔ sorted m.cells = true ∧ (∀ c ∈ m.cells, c.2 ≠ 0) ∧ sorted m.poison = true := by
  simp [Mem.wf, and_assoc]

theorem Mem.wf_empty : ({} : Mem).wf = true := rfl

theorem Mem.wf_writeByte {m : Mem} (a : Nat) (x : Byte) (p : Bool) (h : m.wf = true) : (m.writeByte a x p).wf = true := by
  obtain ⟨h1, h2, h3⟩ := (Mem.wf_iff m).mp h
  refine (Mem.wf_iff _).mpr ⟨sorted_setD _ _ _ h1, ?_, ?_⟩
  · intro c hc
    rcases mem_setD hc with ⟨rfl, hx⟩ | hc
    · exact hx
    · exact h2 c hc
  · simp only [Mem.writeByte]
    split
    · exact sorted_insert _ _ h3
    · exact sorted_erase _ h3

theorem Mem.wf_write {m : Mem} (a : Nat) (l : List (Byte × Bool)) (h : m.wf = true) : (m.write a l).wf = true := by
  induction l generalizing m a with
  | nil => exact h
  | cons x l ih => exact ih _ (Mem.wf_writeByte _ _ _ h)

theorem Mem.wf_poisonUnit {m : Mem} (a n : Nat) (h : m.wf = true) : (m.poisonUnit a n).wf = true := by
  obtain ⟨h1, h2, h3⟩ := (Mem.wf_iff m).mp h
  refine (Mem.wf_iff _).mpr ⟨h1, h2, ?_⟩
  simp only [Mem.poisonUnit]
  generalize rangeFrom a n = l
  generalize m.poison = p at h3
  clear h h1 h2
  induction l generalizing p with
  | nil => exact h3
  | cons x l ih => exact ih _ (sorted_insert _ _ h3)

end Sys2Proof.Machine
end

