-- ==== Sys2Proof/Laws/LSlot.lean ====
section
/-! SUPPORT. What each shape of L form does when its bundle may issue (06 R164 to R166, 09 R230 to R236). -/

namespace Sys2Proof.Machine

variable {f : LSlot} {s : State}

/-! ### Scratchpad forms -/

theorem scratchChecks_open {x : Word} {w : Nat} (h : ScratchOpen s x w) : scratchChecks s x w = [[], [], []] := by
  have h3 : decide (scratchLimit < x.toNat + w) = false := decide_eq_false (Nat.not_lt.mpr h.inside)
  simp [scratchChecks, waterCheck, h.aligned, h.written, h3]

/-- The result of a load (09 R231). -/
abbrev lLoadResult (f : LSlot) (s : State) (w : Nat) (signed : Bool) : Result :=
  let bs := s.curTile.scratch.read (lAddr (s.plainOp f.sa).val f).toNat w
  ⟨4, .scalar f.t.toNat
    { val := if signed then BitVec.ofInt 64 (signExt (bytesVal bs) (8 * w)) else BitVec.ofNat 64 (bytesVal bs), poison := bytesPoison bs }, 0⟩

/-- The checks of a load in order (09 R231, R236). -/
def lLoadChecks (f : LSlot) (s : State) (w : Nat) (acq : Bool) : List (List Check) :=
  let x := lAddr (s.plainOp f.sa).val f
  acquireCheck s :: failIf (s.plainOp f.sa).poison (trapCheck cPoison x) :: scratchChecks s x w
    ++ [failIf (acq && bytesPoison (s.curTile.scratch.read x.toNat w)) (trapCheck cPoisonSync x)]

/-- The plan of a load whose guard is true. -/
def lLoadPlan (f : LSlot) (s : State) (w : Nat) (signed acq : Bool) : Plan :=
  let x := lAddr (s.plainOp f.sa).val f
  { checks := firstOf (lLoadChecks f s w acq), results := [lLoadResult f s w signed], banks := banksOf x.toNat w, bankAddr := x }

theorem lLoad_issued {w : Nat} {signed acq : Bool} (ho : Opens s) (hg : s.guard f.g f.gn = true)
    (hc : firstOf (lLoadChecks f s w acq) = [])
    (hu : Unhindered s ([lLoadResult f s w signed].map (Result.flight s.now)) (banksOf (lAddr (s.plainOp f.sa).val f).toNat w)) :
    ∃ t, lLoad f w signed acq s = .next t ∧ Issued s t [lLoadResult f s w signed] := by
  exact issueOp_acts ho (q := lLoadPlan f s w signed acq) (guarded_true hg) hc hu rfl rfl rfl rfl rfl

theorem lLoad_trapped {w : Nat} {signed acq : Bool} {cause : Nat} {addr : Word} {ph : Nat} (ho : Opens s) (hg : s.guard f.g f.gn = true)
    (hc : firstOf (lLoadChecks f s w acq) = [trapCheck cause addr ph])
    (hu : Unhindered s ([lLoadResult f s w signed].map (Result.flight s.now)) (banksOf (lAddr (s.plainOp f.sa).val f).toNat w)) :
    ∃ t, lLoad f w signed acq s = .next t ∧ Trapped s t cause addr := by
  exact issueOp_trapped ho (q := lLoadPlan f s w signed acq) (guarded_true hg) hc hu rfl rfl rfl

/-- The checks of a store in order (09 R231, 08 R211). -/
def lStoreChecks (f : LSlot) (s : State) (w : Nat) (rel : Bool) : List (List Check) :=
  let x := lAddr (s.plainOp f.sa).val f
  acquireCheck s :: failIf ((s.plainOp f.sa).poison || (rel && (s.plainOp f.sb).poison)) (trapCheck cPoison x) :: scratchChecks s x w
    ++ [releaseCheck s rel]

/-- The plan of a store whose guard is true. -/
def lStorePlan (f : LSlot) (s : State) (w : Nat) (rel : Bool) : Plan :=
  let b := s.plainOp f.sb
  let x := lAddr (s.plainOp f.sa).val f
  { checks := firstOf (lStoreChecks f s w rel), banks := banksOf x.toNat w, bankAddr := x
    act := fun s => s.modCurTile fun y =>
      { y with scratch := y.scratch.write x.toNat (valBytes w (b.val.toNat % 2 ^ (8 * w)) b.poison) } }

theorem lStore_went {w : Nat} {rel : Bool} (ho : Opens s) (hg : s.guard f.g f.gn = true) (hc : firstOf (lStoreChecks f s w rel) = [])
    (hu : Unhindered s [] (banksOf (lAddr (s.plainOp f.sa).val f).toNat w)) :
    ∃ t, lStore f w rel s = .next t ∧
      Went (s.modCurTile fun y => { y with
        scratch := y.scratch.write (lAddr (s.plainOp f.sa).val f).toNat
          (valBytes w ((s.plainOp f.sb).val.toNat % 2 ^ (8 * w)) (s.plainOp f.sb).poison) }) t [] s.issue.nextPc false := by
  exact issueOp_acts ho (q := lStorePlan f s w rel) (guarded_true hg) hc hu rfl rfl rfl rfl rfl

theorem lStore_trapped {w : Nat} {rel : Bool} {cause : Nat} {addr : Word} {ph : Nat} (ho : Opens s) (hg : s.guard f.g f.gn = true)
    (hc : firstOf (lStoreChecks f s w rel) = [trapCheck cause addr ph])
    (hu : Unhindered s [] (banksOf (lAddr (s.plainOp f.sa).val f).toNat w)) :
    ∃ t, lStore f w rel s = .next t ∧ Trapped s t cause addr := by
  exact issueOp_trapped ho (q := lStorePlan f s w rel) (guarded_true hg) hc hu rfl rfl rfl

/-! ### Vector loads and stores -/

/-- A register that may be named passes the checks of its group (06 R135, R138). -/
theorem checks_named {k : Ctx} {n : Nat} (h : Named k n) : groupChecks k [.vec n 1] = [] ∧ absentChecks k [.vec n 1] = [] := by
  obtain ⟨⟨h1, h2⟩, h3⟩ := h
  constructor
  · have : ¬(k.valloc.toNat ≤ k.veff n ∨ 64 ≤ n) := by omega
    simp [groupChecks, GroupUse.failing, GroupUse.aligned, GroupUse.members, rangeFrom, this]
  · simp [absentChecks, GroupUse.members, rangeFrom, failIf, h3]

theorem guarded_named {g : BitVec 4} {gn : BitVec 1} {p : Plan} {n : Nat} (h : Named s.cur n) (hg : s.guard g gn = true) :
    guarded s g gn [.vec n 1] p = p := by
  obtain ⟨h1, h2⟩ := checks_named h
  simp [guarded, Plan.withGroups, hg, h1, h2]

/-- The plan of a vector load that is not kept from going (06 R165). -/
def vLoadPlan (f : LSlot) (s : State) (strided : Bool) : Plan :=
  let a := s.plainOp f.sa
  let st := vmemStride s f strided
  let x := lAddr a.val f
  let cs := chunksOf x st.val
  { checks := firstOf (vmemChecks s x (a.poison || st.poison) strided st.val)
    results := [⟨5, .vector (s.cur.veff f.t.toNat) ((lanesOf (cs.flatMap fun c => s.curTile.scratch.read c 64)).map some), 0⟩]
    banks := cs.map bankOf, bankAddr := x }

theorem vLoad_issued {strided : Bool} (ho : Opens s) (hg : s.guard f.g f.gn = true) (hn : Named s.cur f.t.toNat)
    (hc : (vLoadPlan f s strided).checks = [])
    (hu : Unhindered s ((vLoadPlan f s strided).results.map (Result.flight s.now)) (vLoadPlan f s strided).banks) :
    ∃ t, vLoad f strided s = .next t ∧ Issued s t (vLoadPlan f s strided).results :=
  issueOp_acts ho (q := vLoadPlan f s strided) (guarded_named hn hg) hc hu rfl rfl rfl rfl rfl

/-- The scratchpad after a vector store (06 R165). -/
def vStored (m : Mem) (cs : List Nat) (bs : List (Byte × Bool)) : Mem :=
  (List.range 4).foldl (fun m q => m.write (cs.getD q 0) ((bs.drop (64 * q)).take 64)) m

/-- The plan of a vector store that is not kept from going (06 R165). -/
def vStorePlan (f : LSlot) (s : State) (strided : Bool) : Plan :=
  let a := s.plainOp f.sa
  let st := vmemStride s f strided
  let x := lAddr a.val f
  let cs := chunksOf x st.val
  { checks := firstOf (vmemChecks s x (a.poison || st.poison) strided st.val), banks := cs.map bankOf, bankAddr := x
    act := fun u => u.modCurTile fun y =>
      { y with scratch := vStored y.scratch cs (laneBytes (s.cur.vreg (s.cur.veff f.t.toNat))) } }

theorem vStore_went {strided : Bool} (ho : Opens s) (hg : s.guard f.g f.gn = true) (hn : Named s.cur f.t.toNat)
    (hc : (vStorePlan f s strided).checks = []) (hu : Unhindered s [] (vStorePlan f s strided).banks) :
    ∃ t, vStore f strided s = .next t ∧ Went ((vStorePlan f s strided).act s) t [] s.issue.nextPc false :=
  issueOp_acts ho (q := vStorePlan f s strided) (guarded_named hn hg) hc hu rfl rfl rfl rfl rfl

/-! ### Accumulator forms -/

/-- The plan of an accumulator form whose guard is true (09 R232). -/
def lAccPlan (f : LSlot) (s : State) (op : AccOp) (acq rel : Bool) : Plan :=
  let a := s.plainOp f.sa
  let b := s.plainOp f.sb
  let x := aAddr a.val f
  match firstOf [acquireCheck s, failIf (a.poison || (rel && b.poison)) (trapCheck cPoison x)] with
  | c :: _ => { checks := [c] }
  | [] =>
    match accTarget s x with
    | .error c => { checks := [c] }
    | .ok (t, entry) =>
      if t = s.issue.tile then accLocal s f op x entry b acq rel
      else if acq then accFar s f op x t entry b rel
      else accRemote s f op t entry b rel

theorem lAcc_plan {op : AccOp} {acq rel : Bool} (hg : s.guard f.g f.gn = true) :
    lAcc f op acq rel s = issueOp (fun _ => lAccPlan f s op acq rel) s := by
  have : ∀ p : State → Plan, p s = lAccPlan f s op acq rel → issueOp p s = issueOp (fun _ => lAccPlan f s op acq rel) s := by
    intro p hp; simp only [issueOp, hp]
  exact this _ (guarded_true hg)

/-- The plan when the operands are free of poison and the address names an entry. -/
theorem lAccPlan_ok {op : AccOp} {acq rel : Bool} {u n : Nat} (hq : acquireCheck s = []) (ha : (s.plainOp f.sa).poison = false)
    (hb : rel = true → (s.plainOp f.sb).poison = false) (ht : accTarget s (aAddr (s.plainOp f.sa).val f) = .ok (u, n)) :
    lAccPlan f s op acq rel =
      if u = s.issue.tile then accLocal s f op (aAddr (s.plainOp f.sa).val f) n (s.plainOp f.sb) acq rel
      else if acq then accFar s f op (aAddr (s.plainOp f.sa).val f) u n (s.plainOp f.sb) rel
      else accRemote s f op u n (s.plainOp f.sb) rel := by
  have h : (rel && (s.plainOp f.sb).poison) = false := by
    cases rel
    · rfl
    · exact hb rfl
  simp only [lAccPlan, hq, ha, h, Bool.or_self, failIf_false, firstOf_pass, firstOf_nil, ht]

theorem releaseCheck_nil {rel : Bool} (h : rel = true → s.released s.issue.tile s.issue.ctx = true) : releaseCheck s rel = [] := by
  cases rel
  · rfl
  · simp [releaseCheck, h]

/-- What an accumulator form does for another tile (09 R234): its request departs, and its landing waits for it. -/
theorem accRemote_went {op : AccOp} {u n : Nat} {b : SReg} {rel : Bool} (ho : Opens s)
    (hr : releaseCheck s rel = []) (hu : Unhindered s ((accRemote s f op u n b rel).flights s.now) []) :
    ∃ t, issueOp (fun _ => accRemote s f op u n b rel) s = .next t ∧
      Went { s with
          mesh := s.mesh ++ [{ id := s.nextId, tile := s.issue.tile, ctx := s.issue.ctx, lat := op.lat, target := u, row := n / 128, col := n % 128
                               op := op, data := b, arrive := s.now + 1 + meshWay s.issue.tile u, way := meshWay s.issue.tile u }]
          nextId := s.nextId + 1 } t
        (if op.lands then
          [{ id := s.nextId, due := s.now + (op.lat + 2 * meshWay s.issue.tile u), dest := .scalar f.t.toNat {}, waits := true
             nominal := some (s.now + (op.lat + 2 * meshWay s.issue.tile u)) }] else []) s.issue.nextPc op.atomic := by
  refine issueOp_went (p := fun _ => accRemote s f op u n b rel) ho hr hu (.inl rfl) (hact := ?_) rfl
  refine ⟨?_, rfl⟩
  cases op <;> simp [accRemote, AccOp.lands, recordPlan, State.modIssue, ho.lands, Plan.landings, State.bump]

end Sys2Proof.Machine
end

