-- ==== Sys2Proof/Laws/PerInstr.lean ====
section
/-! SUPPORT. The round trip of the encoding, instruction by instruction: the word of a well-formed instruction fits its slot and decodes to
it (02 R42 to R45, R47, R49). -/

namespace Sys2Proof.Laws

/-! ### Fields of a word -/

theorem fieldOf_eq {w lo n : Nat} (x : BitVec n) (h : w / 2 ^ lo % 2 ^ n = x.toNat) : fieldOf w lo n = x := by
  apply BitVec.eq_of_toNat_eq
  simp [fieldOf, h]

/-! ### SSlot -/

theorem SSlot.word_lt (f : SSlot) {op : Nat} (h : op < 128) : f.word op < 2 ^ 40 := by
  have := f.d.isLt
  have := f.sa.isLt
  have := f.sb.isLt
  have := f.g.isLt
  have := f.gn.isLt
  have := f.imm.isLt
  simp only [SSlot.word]
  omega

theorem SSlot.ofWord_word (f : SSlot) {op : Nat} (h : op < 128) : SSlot.ofWord (f.word op) = f := by
  have := f.d.isLt
  have := f.sa.isLt
  have := f.sb.isLt
  have := f.g.isLt
  have := f.gn.isLt
  have := f.imm.isLt
  have e : f = { d := f.d, sa := f.sa, sb := f.sb, g := f.g, gn := f.gn, imm := f.imm } := rfl
  rw [e]
  simp only [SSlot.ofWord]
  congr 1 <;> (apply fieldOf_eq; simp only [SSlot.word]; omega)

theorem SSlot.word_op (f : SSlot) {op : Nat} (h : op < 128) : f.word op % 128 = op := by
  simp only [SSlot.word]
  omega

/-- A word of this layout decodes to the well-formed instruction that its opcode value names. -/
theorem SSlot.decode_word (f : SSlot) {op : Nat} {c : SSlot → Instr} (h0 : op ≠ 0) (h : op < 128) (hf : formS op = some c)
    (hw : (c f).wf = true) : decodeS (f.word op) = .ok (c f) := by
  have hn : f.word op ≠ 0 := by have := SSlot.word_op f h; intro e; rw [e] at this; omega
  rw [decodeS, if_neg hn, SSlot.word_op f h, hf]
  simp only []
  simp only [SSlot.ofWord_word f h, accept, hw, if_true]

/-! ### LSlot -/

theorem LSlot.word_lt (f : LSlot) {op : Nat} (h : op < 64) : f.word op < 2 ^ 40 := by
  have := f.t.isLt
  have := f.sa.isLt
  have := f.sb.isLt
  have := f.sc.isLt
  have := f.g.isLt
  have := f.gn.isLt
  have := f.off.isLt
  simp only [LSlot.word]
  omega

theorem LSlot.ofWord_word (f : LSlot) {op : Nat} (h : op < 64) : LSlot.ofWord (f.word op) = f := by
  have := f.t.isLt
  have := f.sa.isLt
  have := f.sb.isLt
  have := f.sc.isLt
  have := f.g.isLt
  have := f.gn.isLt
  have := f.off.isLt
  have e : f = { t := f.t, sa := f.sa, sb := f.sb, sc := f.sc, g := f.g, gn := f.gn, off := f.off } := rfl
  rw [e]
  simp only [LSlot.ofWord]
  congr 1 <;> (apply fieldOf_eq; simp only [LSlot.word]; omega)

theorem LSlot.word_op (f : LSlot) {op : Nat} (h : op < 64) : f.word op % 64 = op := by
  simp only [LSlot.word]
  omega

/-- A word of this layout decodes to the well-formed instruction that its opcode value names. -/
theorem LSlot.decode_word (f : LSlot) {op : Nat} {c : LSlot → Instr} (h0 : op ≠ 0) (h : op < 64) (hf : formL op = some c)
    (hw : (c f).wf = true) : decodeL (f.word op) = .ok (c f) := by
  have hn : f.word op ≠ 0 := by have := LSlot.word_op f h; intro e; rw [e] at this; omega
  rw [decodeL, if_neg hn, LSlot.word_op f h, hf]
  simp only []
  simp only [LSlot.ofWord_word f h, accept, hw, if_true]

/-! ### VSlot -/

theorem VSlot.word_lt (f : VSlot) {op : Nat} (h : op < 256) : f.word op < 2 ^ 64 := by
  have := f.vd.isLt
  have := f.va.isLt
  have := f.vb.isLt
  have := f.vc.isLt
  have := f.mkr.isLt
  have := f.me.isLt
  have := f.mz.isLt
  have := f.rm.isLt
  have := f.ss.isLt
  have := f.sd.isLt
  have := f.vs.isLt
  have := f.imm.isLt
  simp only [VSlot.word]
  omega

theorem VSlot.ofWord_word (f : VSlot) {op : Nat} (h : op < 256) : VSlot.ofWord (f.word op) = f := by
  have := f.vd.isLt
  have := f.va.isLt
  have := f.vb.isLt
  have := f.vc.isLt
  have := f.mkr.isLt
  have := f.me.isLt
  have := f.mz.isLt
  have := f.rm.isLt
  have := f.ss.isLt
  have := f.sd.isLt
  have := f.vs.isLt
  have := f.imm.isLt
  have e : f = { vd := f.vd, va := f.va, vb := f.vb, vc := f.vc, mkr := f.mkr, me := f.me, mz := f.mz, rm := f.rm, ss := f.ss, sd := f.sd, vs := f.vs, imm := f.imm } := rfl
  rw [e]
  simp only [VSlot.ofWord]
  congr 1 <;> (apply fieldOf_eq; simp only [VSlot.word]; omega)

theorem VSlot.word_op (f : VSlot) {op : Nat} (h : op < 256) : f.word op % 256 = op := by
  simp only [VSlot.word]
  omega

/-- A word of this layout decodes to the well-formed instruction that its opcode value names. -/
theorem VSlot.decode_word (f : VSlot) {op : Nat} {c : VSlot → Instr} (h0 : op ≠ 0) (h : op < 256) (hf : formV op = some c)
    (hw : (c f).wf = true) : decodeV (f.word op) = .ok (c f) := by
  have hn : f.word op ≠ 0 := by have := VSlot.word_op f h; intro e; rw [e] at this; omega
  rw [decodeV, if_neg hn, VSlot.word_op f h, hf]
  simp only []
  simp only [VSlot.ofWord_word f h, accept, hw, if_true]

/-! ### MSlot -/

theorem MSlot.word_lt (f : MSlot) {op : Nat} (h : op < 32) : f.word op < 2 ^ 37 := by
  have := f.sy.isLt
  have := f.sa.isLt
  have := f.sb.isLt
  have := f.os.isLt
  have := f.ot.isLt
  have := f.ar.isLt
  simp only [MSlot.word]
  omega

theorem MSlot.ofWord_word (f : MSlot) {op : Nat} (h : op < 32) : MSlot.ofWord (f.word op) = f := by
  have := f.sy.isLt
  have := f.sa.isLt
  have := f.sb.isLt
  have := f.os.isLt
  have := f.ot.isLt
  have := f.ar.isLt
  have e : f = { sy := f.sy, sa := f.sa, sb := f.sb, os := f.os, ot := f.ot, ar := f.ar } := rfl
  rw [e]
  simp only [MSlot.ofWord]
  congr 1 <;> (apply fieldOf_eq; simp only [MSlot.word]; omega)

theorem MSlot.word_op (f : MSlot) {op : Nat} (h : op < 32) : f.word op % 32 = op := by
  simp only [MSlot.word]
  omega

/-- A word of this layout decodes to the well-formed instruction that its opcode value names. -/
theorem MSlot.decode_word (f : MSlot) {op : Nat} {c : MSlot → Instr} (h0 : op ≠ 0) (h : op < 32) (hf : formM op = some c)
    (hw : (c f).wf = true) : decodeM (f.word op) = .ok (c f) := by
  have hn : f.word op ≠ 0 := by have := MSlot.word_op f h; intro e; rw [e] at this; omega
  rw [decodeM, if_neg hn, MSlot.word_op f h, hf]
  simp only []
  simp only [show MSlot.word f op / 2 ^ 37 % 8 = 0 from by have := MSlot.word_lt f h; omega, if_pos]
  simp only [MSlot.ofWord_word f h, accept, hw, if_true]

/-! ### XSlot -/

theorem XSlot.word_lt (f : XSlot) {op : Nat} (h : op < 64) : f.word op < 2 ^ 36 := by
  have := f.sy.isLt
  have := f.sa.isLt
  have := f.sb.isLt
  have := f.sc.isLt
  have := f.sd.isLt
  have := f.ch.isLt
  have := f.sco.isLt
  have := f.ord.isLt
  have := f.td.isLt
  simp only [XSlot.word]
  omega

theorem XSlot.ofWord_word (f : XSlot) {op : Nat} (h : op < 64) : XSlot.ofWord (f.word op) = f := by
  have := f.sy.isLt
  have := f.sa.isLt
  have := f.sb.isLt
  have := f.sc.isLt
  have := f.sd.isLt
  have := f.ch.isLt
  have := f.sco.isLt
  have := f.ord.isLt
  have := f.td.isLt
  have e : f = { sy := f.sy, sa := f.sa, sb := f.sb, sc := f.sc, sd := f.sd, ch := f.ch, sco := f.sco, ord := f.ord, td := f.td } := rfl
  rw [e]
  simp only [XSlot.ofWord]
  congr 1 <;> (apply fieldOf_eq; simp only [XSlot.word]; omega)

theorem XSlot.word_op (f : XSlot) {op : Nat} (h : op < 64) : f.word op % 64 = op := by
  simp only [XSlot.word]
  omega

/-- A word of this layout decodes to the well-formed instruction that its opcode value names. -/
theorem XSlot.decode_word (f : XSlot) {op : Nat} {c : XSlot → Instr} (h0 : op ≠ 0) (h : op < 64) (hf : formX op = some c)
    (hw : (c f).wf = true) : decodeX (f.word op) = .ok (c f) := by
  have hn : f.word op ≠ 0 := by have := XSlot.word_op f h; intro e; rw [e] at this; omega
  rw [decodeX, if_neg hn, XSlot.word_op f h, hf]
  simp only []
  simp only [show XSlot.word f op / 2 ^ 36 % 16 = 0 from by have := XSlot.word_lt f h; omega, if_pos]
  simp only [XSlot.ofWord_word f h, accept, hw, if_true]

/-! ### FSlot -/

theorem FSlot.word_lt (f : FSlot) {op : Nat} (h : op < 16) : f.word op < 2 ^ 24 := by
  have := f.sy.isLt
  have := f.pt.isLt
  have := f.sa.isLt
  have := f.sb.isLt
  have := f.n.isLt
  simp only [FSlot.word]
  omega

theorem FSlot.ofWord_word (f : FSlot) {op : Nat} (h : op < 16) : FSlot.ofWord (f.word op) = f := by
  have := f.sy.isLt
  have := f.pt.isLt
  have := f.sa.isLt
  have := f.sb.isLt
  have := f.n.isLt
  have e : f = { sy := f.sy, pt := f.pt, sa := f.sa, sb := f.sb, n := f.n } := rfl
  rw [e]
  simp only [FSlot.ofWord]
  congr 1 <;> (apply fieldOf_eq; simp only [FSlot.word]; omega)

theorem FSlot.word_op (f : FSlot) {op : Nat} (h : op < 16) : f.word op % 16 = op := by
  simp only [FSlot.word]
  omega

/-- A word of this layout decodes to the well-formed instruction that its opcode value names. -/
theorem FSlot.decode_word (f : FSlot) {op : Nat} {c : FSlot → Instr} (h0 : op ≠ 0) (h : op < 16) (hf : formF op = some c)
    (hw : (c f).wf = true) : decodeF (f.word op) = .ok (c f) := by
  have hn : f.word op ≠ 0 := by have := FSlot.word_op f h; intro e; rw [e] at this; omega
  rw [decodeF, if_neg hn, FSlot.word_op f h, hf]
  simp only []
  simp only [FSlot.ofWord_word f h, accept, hw, if_true]

/-! ### CSlot -/

theorem CSlot.word_lt (f : CSlot) {op : Nat} (h : op < 64) : f.word op < 2 ^ 32 := by
  have := f.sa.isLt
  have := f.sb.isLt
  have := f.p.isLt
  have := f.imm.isLt
  simp only [CSlot.word]
  omega

theorem CSlot.ofWord_word (f : CSlot) {op : Nat} (h : op < 64) : CSlot.ofWord (f.word op) = f := by
  have := f.sa.isLt
  have := f.sb.isLt
  have := f.p.isLt
  have := f.imm.isLt
  have e : f = { sa := f.sa, sb := f.sb, p := f.p, imm := f.imm } := rfl
  rw [e]
  simp only [CSlot.ofWord]
  congr 1 <;> (apply fieldOf_eq; simp only [CSlot.word]; omega)

theorem CSlot.word_op (f : CSlot) {op : Nat} (h : op < 64) : f.word op % 64 = op := by
  simp only [CSlot.word]
  omega

/-- A word of this layout decodes to the well-formed instruction that its opcode value names. -/
theorem CSlot.decode_word (f : CSlot) {op : Nat} {c : CSlot → Instr} (h0 : op ≠ 0) (h : op < 64) (hf : formC op = some c) (hj : formJ op = none)
    (hw : (c f).wf = true) : decodeC (f.word op) = .ok (c f) := by
  have hn : f.word op ≠ 0 := by have := CSlot.word_op f h; intro e; rw [e] at this; omega
  rw [decodeC, if_neg hn, CSlot.word_op f h, hj]
  simp only [hf, CSlot.ofWord_word f h, accept, hw, if_true]

/-! ### CJump -/

theorem CJump.word_lt (f : CJump) {op : Nat} (h : op < 64) : f.word op < 2 ^ 32 := by
  have := f.disp.isLt
  simp only [CJump.word]
  omega

theorem CJump.ofWord_word (f : CJump) {op : Nat} (h : op < 64) : CJump.ofWord (f.word op) = f := by
  have := f.disp.isLt
  have e : f = { disp := f.disp } := rfl
  rw [e]
  simp only [CJump.ofWord]
  congr 1; apply fieldOf_eq; simp only [CJump.word]; omega

theorem CJump.word_op (f : CJump) {op : Nat} (h : op < 64) : f.word op % 64 = op := by
  simp only [CJump.word]
  omega

/-- A word of this layout decodes to the well-formed instruction that its opcode value names. -/
theorem CJump.decode_word (f : CJump) {op : Nat} {c : CJump → Instr} (h0 : op ≠ 0) (h : op < 64) (hf : formJ op = some c)
    (hw : (c f).wf = true) : decodeC (f.word op) = .ok (c f) := by
  have hn : f.word op ≠ 0 := by have := CJump.word_op f h; intro e; rw [e] at this; omega
  rw [decodeC, if_neg hn, CJump.word_op f h, hf]
  simp only []
  simp only [show CJump.word f op / 2 ^ 6 % 64 = 0 from by simp only [CJump.word]; omega, if_pos]
  simp only [CJump.ofWord_word f h, accept, hw, if_true]

/-! ### The family -/

namespace Encoding

/-- A well-formed instruction that stands in a slot has a word of the slot's bits, and the word decodes to it, or to the row that shares
its word. -/
def Statement (i : Instr) : Prop :=
  i.wf = true → ∀ k w, encode i = some (k, w) → w < 2 ^ k.width ∧ decodeSlot k w = .ok (decodesTo i)

/-- An instruction without a word of its own: a header operation or an event. -/
theorem of_none {i : Instr} (h : encode i = none) : Statement i := by
  intro _ k w he
  rw [h] at he
  exact absurd he (by simp)

/-- From one word of one kind. -/
theorem of_word {i : Instr} {k : SlotKind} {w : Nat} (he : encode i = some (k, w)) (hlt : w < 2 ^ k.width)
    (hd : i.wf = true → decodeSlot k w = .ok (decodesTo i)) : Statement i := by
  intro hw k' w' he'
  rw [he] at he'
  obtain ⟨rfl, rfl⟩ := Prod.mk.inj (Option.some.inj he')
  exact ⟨hlt, hd hw⟩

theorem of_s {op : Nat} {c : SSlot → Instr} {i : Instr} (f : SSlot) (h0 : op ≠ 0) (h : op < 128) (hf : formS op = some c)
    (he : encode i = some (.s, f.word op)) (hd : decodesTo i = c f) (hw : i.wf = (c f).wf) : Statement i :=
  of_word he (SSlot.word_lt f h) fun h' => hd ▸ SSlot.decode_word f h0 h hf (hw ▸ h')

theorem of_l {op : Nat} {c : LSlot → Instr} {i : Instr} (f : LSlot) (h0 : op ≠ 0) (h : op < 64) (hf : formL op = some c)
    (he : encode i = some (.l, f.word op)) (hd : decodesTo i = c f) (hw : i.wf = (c f).wf) : Statement i :=
  of_word he (LSlot.word_lt f h) fun h' => hd ▸ LSlot.decode_word f h0 h hf (hw ▸ h')

theorem of_v {op : Nat} {c : VSlot → Instr} {i : Instr} (f : VSlot) (h0 : op ≠ 0) (h : op < 256) (hf : formV op = some c)
    (he : encode i = some (.v, f.word op)) (hd : decodesTo i = c f) (hw : i.wf = (c f).wf) : Statement i :=
  of_word he (VSlot.word_lt f h) fun h' => hd ▸ VSlot.decode_word f h0 h hf (hw ▸ h')

theorem of_m {op : Nat} {c : MSlot → Instr} {i : Instr} (f : MSlot) (h0 : op ≠ 0) (h : op < 32) (hf : formM op = some c)
    (he : encode i = some (.m, f.word op)) (hd : decodesTo i = c f) (hw : i.wf = (c f).wf) : Statement i :=
  of_word he (Nat.lt_trans (MSlot.word_lt f h) (by decide)) fun h' => hd ▸ MSlot.decode_word f h0 h hf (hw ▸ h')

theorem of_x {op : Nat} {c : XSlot → Instr} {i : Instr} (f : XSlot) (h0 : op ≠ 0) (h : op < 64) (hf : formX op = some c)
    (he : encode i = some (.x, f.word op)) (hd : decodesTo i = c f) (hw : i.wf = (c f).wf) : Statement i :=
  of_word he (Nat.lt_trans (XSlot.word_lt f h) (by decide)) fun h' => hd ▸ XSlot.decode_word f h0 h hf (hw ▸ h')

theorem of_f {op : Nat} {c : FSlot → Instr} {i : Instr} (f : FSlot) (h0 : op ≠ 0) (h : op < 16) (hf : formF op = some c)
    (he : encode i = some (.f, f.word op)) (hd : decodesTo i = c f) (hw : i.wf = (c f).wf) : Statement i :=
  of_word he (FSlot.word_lt f h) fun h' => hd ▸ FSlot.decode_word f h0 h hf (hw ▸ h')

theorem of_c {op : Nat} {c : CSlot → Instr} {i : Instr} (f : CSlot) (h0 : op ≠ 0) (h : op < 64) (hf : formC op = some c) (hj : formJ op = none)
    (he : encode i = some (.c, f.word op)) (hd : decodesTo i = c f) (hw : i.wf = (c f).wf) : Statement i :=
  of_word he (CSlot.word_lt f h) fun h' => hd ▸ CSlot.decode_word f h0 h hf hj (hw ▸ h')

theorem of_j {op : Nat} {c : CJump → Instr} {i : Instr} (f : CJump) (h0 : op ≠ 0) (h : op < 64) (hf : formJ op = some c)
    (he : encode i = some (.c, f.word op)) (hd : decodesTo i = c f) (hw : i.wf = (c f).wf) : Statement i :=
  of_word he (CJump.word_lt f h) fun h' => hd ▸ CJump.decode_word f h0 h hf (hw ▸ h')

theorem add (f) : Statement (.add f) := of_s f (op := 0x01) (by decide) (by decide) rfl rfl rfl rfl
theorem sub (f) : Statement (.sub f) := of_s f (op := 0x02) (by decide) (by decide) rfl rfl rfl rfl
theorem and (f) : Statement (.and f) := of_s f (op := 0x03) (by decide) (by decide) rfl rfl rfl rfl
theorem or (f) : Statement (.or f) := of_s f (op := 0x04) (by decide) (by decide) rfl rfl rfl rfl
theorem xor (f) : Statement (.xor f) := of_s f (op := 0x05) (by decide) (by decide) rfl rfl rfl rfl
theorem andn (f) : Statement (.andn f) := of_s f (op := 0x06) (by decide) (by decide) rfl rfl rfl rfl
theorem orn (f) : Statement (.orn f) := of_s f (op := 0x07) (by decide) (by decide) rfl rfl rfl rfl
theorem xnor (f) : Statement (.xnor f) := of_s f (op := 0x08) (by decide) (by decide) rfl rfl rfl rfl
theorem shl (f) : Statement (.shl f) := of_s f (op := 0x09) (by decide) (by decide) rfl rfl rfl rfl
theorem shr (f) : Statement (.shr f) := of_s f (op := 0x0A) (by decide) (by decide) rfl rfl rfl rfl
theorem sar (f) : Statement (.sar f) := of_s f (op := 0x0B) (by decide) (by decide) rfl rfl rfl rfl
theorem rol (f) : Statement (.rol f) := of_s f (op := 0x0C) (by decide) (by decide) rfl rfl rfl rfl
theorem ror (f) : Statement (.ror f) := of_s f (op := 0x0D) (by decide) (by decide) rfl rfl rfl rfl
theorem shadd (f) : Statement (.shadd f) := of_s f (op := 0x0E) (by decide) (by decide) rfl rfl rfl rfl
theorem abs (f) : Statement (.abs f) := of_s f (op := 0x0F) (by decide) (by decide) rfl rfl rfl rfl
theorem mul (f) : Statement (.mul f) := of_s f (op := 0x10) (by decide) (by decide) rfl rfl rfl rfl
theorem mulhI (f) : Statement (.mulhI f) := of_s f (op := 0x11) (by decide) (by decide) rfl rfl rfl rfl
theorem mulhN (f) : Statement (.mulhN f) := of_s f (op := 0x12) (by decide) (by decide) rfl rfl rfl rfl
theorem mulhIn (f) : Statement (.mulhIn f) := of_s f (op := 0x13) (by decide) (by decide) rfl rfl rfl rfl
theorem mulwI (f) : Statement (.mulwI f) := of_s f (op := 0x14) (by decide) (by decide) rfl rfl rfl rfl
theorem mulwN (f) : Statement (.mulwN f) := of_s f (op := 0x15) (by decide) (by decide) rfl rfl rfl rfl
theorem divI (f) : Statement (.divI f) := of_s f (op := 0x16) (by decide) (by decide) rfl rfl rfl rfl
theorem divN (f) : Statement (.divN f) := of_s f (op := 0x17) (by decide) (by decide) rfl rfl rfl rfl
theorem remI (f) : Statement (.remI f) := of_s f (op := 0x18) (by decide) (by decide) rfl rfl rfl rfl
theorem remN (f) : Statement (.remN f) := of_s f (op := 0x19) (by decide) (by decide) rfl rfl rfl rfl
theorem minI (f) : Statement (.minI f) := of_s f (op := 0x1A) (by decide) (by decide) rfl rfl rfl rfl
theorem minN (f) : Statement (.minN f) := of_s f (op := 0x1B) (by decide) (by decide) rfl rfl rfl rfl
theorem maxI (f) : Statement (.maxI f) := of_s f (op := 0x1C) (by decide) (by decide) rfl rfl rfl rfl
theorem maxN (f) : Statement (.maxN f) := of_s f (op := 0x1D) (by decide) (by decide) rfl rfl rfl rfl
theorem addsI (f) : Statement (.addsI f) := of_s f (op := 0x1E) (by decide) (by decide) rfl rfl rfl rfl
theorem addsN (f) : Statement (.addsN f) := of_s f (op := 0x1F) (by decide) (by decide) rfl rfl rfl rfl
theorem subsI (f) : Statement (.subsI f) := of_s f (op := 0x20) (by decide) (by decide) rfl rfl rfl rfl
theorem subsN (f) : Statement (.subsN f) := of_s f (op := 0x21) (by decide) (by decide) rfl rfl rfl rfl
theorem clz (f) : Statement (.clz f) := of_s f (op := 0x22) (by decide) (by decide) rfl rfl rfl rfl
theorem ctz (f) : Statement (.ctz f) := of_s f (op := 0x23) (by decide) (by decide) rfl rfl rfl rfl
theorem popc (f) : Statement (.popc f) := of_s f (op := 0x24) (by decide) (by decide) rfl rfl rfl rfl
theorem brev (f) : Statement (.brev f) := of_s f (op := 0x25) (by decide) (by decide) rfl rfl rfl rfl
theorem extrI (f) : Statement (.extrI f) := of_s f (op := 0x26) (by decide) (by decide) rfl rfl rfl rfl
theorem extrN (f) : Statement (.extrN f) := of_s f (op := 0x27) (by decide) (by decide) rfl rfl rfl rfl
theorem insr (f) : Statement (.insr f) := of_s f (op := 0x28) (by decide) (by decide) rfl rfl rfl rfl
theorem sextI8 (f) : Statement (.sextI8 f) := of_s f (op := 0x29) (by decide) (by decide) rfl rfl rfl rfl
theorem sextI16 (f) : Statement (.sextI16 f) := of_s f (op := 0x2A) (by decide) (by decide) rfl rfl rfl rfl
theorem sextI32 (f) : Statement (.sextI32 f) := of_s f (op := 0x2B) (by decide) (by decide) rfl rfl rfl rfl
theorem cmpEq (f) : Statement (.cmpEq f) := of_s f (op := 0x30) (by decide) (by decide) rfl rfl rfl rfl
theorem cmpNe (f) : Statement (.cmpNe f) := of_s f (op := 0x31) (by decide) (by decide) rfl rfl rfl rfl
theorem cmpLtI (f) : Statement (.cmpLtI f) := of_s f (op := 0x32) (by decide) (by decide) rfl rfl rfl rfl
theorem cmpLeI (f) : Statement (.cmpLeI f) := of_s f (op := 0x33) (by decide) (by decide) rfl rfl rfl rfl
theorem cmpGtI (f) : Statement (.cmpGtI f) := of_s f (op := 0x34) (by decide) (by decide) rfl rfl rfl rfl
theorem cmpGeI (f) : Statement (.cmpGeI f) := of_s f (op := 0x35) (by decide) (by decide) rfl rfl rfl rfl
theorem cmpLtN (f) : Statement (.cmpLtN f) := of_s f (op := 0x36) (by decide) (by decide) rfl rfl rfl rfl
theorem cmpLeN (f) : Statement (.cmpLeN f) := of_s f (op := 0x37) (by decide) (by decide) rfl rfl rfl rfl
theorem cmpGtN (f) : Statement (.cmpGtN f) := of_s f (op := 0x38) (by decide) (by decide) rfl rfl rfl rfl
theorem cmpGeN (f) : Statement (.cmpGeN f) := of_s f (op := 0x39) (by decide) (by decide) rfl rfl rfl rfl
theorem tstAny (f) : Statement (.tstAny f) := of_s f (op := 0x3A) (by decide) (by decide) rfl rfl rfl rfl
theorem tstNone (f) : Statement (.tstNone f) := of_s f (op := 0x3B) (by decide) (by decide) rfl rfl rfl rfl
theorem sel (f) : Statement (.sel f) := of_s f (op := 0x3C) (by decide) (by decide) rfl rfl rfl rfl
theorem movz (f) : Statement (.movz f) := of_s f (op := 0x40) (by decide) (by decide) rfl rfl rfl rfl
theorem movk (f) : Statement (.movk f) := of_s f (op := 0x41) (by decide) (by decide) rfl rfl rfl rfl
theorem movn (f) : Statement (.movn f) := of_s f (op := 0x42) (by decide) (by decide) rfl rfl rfl rfl
theorem pand (f) : Statement (.pand f) := of_s f (op := 0x43) (by decide) (by decide) rfl rfl rfl rfl
theorem por (f) : Statement (.por f) := of_s f (op := 0x44) (by decide) (by decide) rfl rfl rfl rfl
theorem pxor (f) : Statement (.pxor f) := of_s f (op := 0x45) (by decide) (by decide) rfl rfl rfl rfl
theorem pandn (f) : Statement (.pandn f) := of_s f (op := 0x46) (by decide) (by decide) rfl rfl rfl rfl
theorem pmovs (f) : Statement (.pmovs f) := of_s f (op := 0x47) (by decide) (by decide) rfl rfl rfl rfl
theorem smovp (f) : Statement (.smovp f) := of_s f (op := 0x48) (by decide) (by decide) rfl rfl rfl rfl
theorem csrr (f) : Statement (.csrr f) := of_s f (op := 0x50) (by decide) (by decide) rfl rfl rfl rfl
theorem csrw (f) : Statement (.csrw f) := of_s f (op := 0x51) (by decide) (by decide) rfl rfl rfl rfl
theorem csrs (f) : Statement (.csrs f) := of_s f (op := 0x52) (by decide) (by decide) rfl rfl rfl rfl
theorem csrc (f) : Statement (.csrc f) := of_s f (op := 0x53) (by decide) (by decide) rfl rfl rfl rfl
theorem ktime (f) : Statement (.ktime f) := of_s f (op := 0x54) (by decide) (by decide) rfl rfl rfl rfl
theorem ldI8 (f) : Statement (.ldI8 f) := of_l f (op := 0x01) (by decide) (by decide) rfl rfl rfl rfl
theorem ldN8 (f) : Statement (.ldN8 f) := of_l f (op := 0x02) (by decide) (by decide) rfl rfl rfl rfl
theorem ldI16 (f) : Statement (.ldI16 f) := of_l f (op := 0x03) (by decide) (by decide) rfl rfl rfl rfl
theorem ldN16 (f) : Statement (.ldN16 f) := of_l f (op := 0x04) (by decide) (by decide) rfl rfl rfl rfl
theorem ldI32 (f) : Statement (.ldI32 f) := of_l f (op := 0x05) (by decide) (by decide) rfl rfl rfl rfl
theorem ldN32 (f) : Statement (.ldN32 f) := of_l f (op := 0x06) (by decide) (by decide) rfl rfl rfl rfl
theorem ld64 (f) : Statement (.ld64 f) := of_l f (op := 0x07) (by decide) (by decide) rfl rfl rfl rfl
theorem ldN32Acq (f) : Statement (.ldN32Acq f) := of_l f (op := 0x08) (by decide) (by decide) rfl rfl rfl rfl
theorem ld64Acq (f) : Statement (.ld64Acq f) := of_l f (op := 0x09) (by decide) (by decide) rfl rfl rfl rfl
theorem st8 (f) : Statement (.st8 f) := of_l f (op := 0x0A) (by decide) (by decide) rfl rfl rfl rfl
theorem st16 (f) : Statement (.st16 f) := of_l f (op := 0x0B) (by decide) (by decide) rfl rfl rfl rfl
theorem st32 (f) : Statement (.st32 f) := of_l f (op := 0x0C) (by decide) (by decide) rfl rfl rfl rfl
theorem st64 (f) : Statement (.st64 f) := of_l f (op := 0x0D) (by decide) (by decide) rfl rfl rfl rfl
theorem st32Rel (f) : Statement (.st32Rel f) := of_l f (op := 0x0E) (by decide) (by decide) rfl rfl rfl rfl
theorem st64Rel (f) : Statement (.st64Rel f) := of_l f (op := 0x0F) (by decide) (by decide) rfl rfl rfl rfl
theorem lda (f) : Statement (.lda f) := of_l f (op := 0x10) (by decide) (by decide) rfl rfl rfl rfl
theorem ldaAcq (f) : Statement (.ldaAcq f) := of_l f (op := 0x11) (by decide) (by decide) rfl rfl rfl rfl
theorem sta (f) : Statement (.sta f) := of_l f (op := 0x12) (by decide) (by decide) rfl rfl rfl rfl
theorem staRel (f) : Statement (.staRel f) := of_l f (op := 0x13) (by decide) (by decide) rfl rfl rfl rfl
theorem aadd (f) : Statement (.aadd f) := of_l f (op := 0x14) (by decide) (by decide) rfl rfl rfl rfl
theorem aaddAcq (f) : Statement (.aaddAcq f) := of_l f (op := 0x15) (by decide) (by decide) rfl rfl rfl rfl
theorem aaddRel (f) : Statement (.aaddRel f) := of_l f (op := 0x16) (by decide) (by decide) rfl rfl rfl rfl
theorem aaddAr (f) : Statement (.aaddAr f) := of_l f (op := 0x17) (by decide) (by decide) rfl rfl rfl rfl
theorem aswp (f) : Statement (.aswp f) := of_l f (op := 0x18) (by decide) (by decide) rfl rfl rfl rfl
theorem aswpAcq (f) : Statement (.aswpAcq f) := of_l f (op := 0x19) (by decide) (by decide) rfl rfl rfl rfl
theorem aswpRel (f) : Statement (.aswpRel f) := of_l f (op := 0x1A) (by decide) (by decide) rfl rfl rfl rfl
theorem aswpAr (f) : Statement (.aswpAr f) := of_l f (op := 0x1B) (by decide) (by decide) rfl rfl rfl rfl
theorem vld (f) : Statement (.vld f) := of_l f (op := 0x1C) (by decide) (by decide) rfl rfl rfl rfl
theorem vlds (f) : Statement (.vlds f) := of_l f (op := 0x1D) (by decide) (by decide) rfl rfl rfl rfl
theorem vst (f) : Statement (.vst f) := of_l f (op := 0x1E) (by decide) (by decide) rfl rfl rfl rfl
theorem vsts (f) : Statement (.vsts f) := of_l f (op := 0x1F) (by decide) (by decide) rfl rfl rfl rfl
theorem vaddF32 (f) : Statement (.vaddF32 f) := of_v f (op := 0x01) (by decide) (by decide) rfl rfl rfl rfl
theorem vaddF16 (f) : Statement (.vaddF16 f) := of_v f (op := 0x02) (by decide) (by decide) rfl rfl rfl rfl
theorem vaddBf16 (f) : Statement (.vaddBf16 f) := of_v f (op := 0x03) (by decide) (by decide) rfl rfl rfl rfl
theorem vaddI32 (f) : Statement (.vaddI32 f) := of_v f (op := 0x04) (by decide) (by decide) rfl rfl rfl rfl
theorem vaddI16 (f) : Statement (.vaddI16 f) := of_v f (op := 0x05) (by decide) (by decide) rfl rfl rfl rfl
theorem vaddI8 (f) : Statement (.vaddI8 f) := of_v f (op := 0x06) (by decide) (by decide) rfl rfl rfl rfl
theorem vsubF32 (f) : Statement (.vsubF32 f) := of_v f (op := 0x07) (by decide) (by decide) rfl rfl rfl rfl
theorem vsubF16 (f) : Statement (.vsubF16 f) := of_v f (op := 0x08) (by decide) (by decide) rfl rfl rfl rfl
theorem vsubBf16 (f) : Statement (.vsubBf16 f) := of_v f (op := 0x09) (by decide) (by decide) rfl rfl rfl rfl
theorem vsubI32 (f) : Statement (.vsubI32 f) := of_v f (op := 0x0A) (by decide) (by decide) rfl rfl rfl rfl
theorem vsubI16 (f) : Statement (.vsubI16 f) := of_v f (op := 0x0B) (by decide) (by decide) rfl rfl rfl rfl
theorem vsubI8 (f) : Statement (.vsubI8 f) := of_v f (op := 0x0C) (by decide) (by decide) rfl rfl rfl rfl
theorem vmulF32 (f) : Statement (.vmulF32 f) := of_v f (op := 0x0D) (by decide) (by decide) rfl rfl rfl rfl
theorem vmulF16 (f) : Statement (.vmulF16 f) := of_v f (op := 0x0E) (by decide) (by decide) rfl rfl rfl rfl
theorem vmulBf16 (f) : Statement (.vmulBf16 f) := of_v f (op := 0x0F) (by decide) (by decide) rfl rfl rfl rfl
theorem vmulI32 (f) : Statement (.vmulI32 f) := of_v f (op := 0x10) (by decide) (by decide) rfl rfl rfl rfl
theorem vmulI16 (f) : Statement (.vmulI16 f) := of_v f (op := 0x11) (by decide) (by decide) rfl rfl rfl rfl
theorem vfmaF32 (f) : Statement (.vfmaF32 f) := of_v f (op := 0x12) (by decide) (by decide) rfl rfl rfl rfl
theorem vfmaF16 (f) : Statement (.vfmaF16 f) := of_v f (op := 0x13) (by decide) (by decide) rfl rfl rfl rfl
theorem vfmaBf16 (f) : Statement (.vfmaBf16 f) := of_v f (op := 0x14) (by decide) (by decide) rfl rfl rfl rfl
theorem vminF32 (f) : Statement (.vminF32 f) := of_v f (op := 0x15) (by decide) (by decide) rfl rfl rfl rfl
theorem vminF16 (f) : Statement (.vminF16 f) := of_v f (op := 0x16) (by decide) (by decide) rfl rfl rfl rfl
theorem vminBf16 (f) : Statement (.vminBf16 f) := of_v f (op := 0x17) (by decide) (by decide) rfl rfl rfl rfl
theorem vminI32 (f) : Statement (.vminI32 f) := of_v f (op := 0x18) (by decide) (by decide) rfl rfl rfl rfl
theorem vmaxF32 (f) : Statement (.vmaxF32 f) := of_v f (op := 0x19) (by decide) (by decide) rfl rfl rfl rfl
theorem vmaxF16 (f) : Statement (.vmaxF16 f) := of_v f (op := 0x1A) (by decide) (by decide) rfl rfl rfl rfl
theorem vmaxBf16 (f) : Statement (.vmaxBf16 f) := of_v f (op := 0x1B) (by decide) (by decide) rfl rfl rfl rfl
theorem vmaxI32 (f) : Statement (.vmaxI32 f) := of_v f (op := 0x1C) (by decide) (by decide) rfl rfl rfl rfl
theorem vaddsI32 (f) : Statement (.vaddsI32 f) := of_v f (op := 0x1D) (by decide) (by decide) rfl rfl rfl rfl
theorem vaddsI16 (f) : Statement (.vaddsI16 f) := of_v f (op := 0x1E) (by decide) (by decide) rfl rfl rfl rfl
theorem vaddsI8 (f) : Statement (.vaddsI8 f) := of_v f (op := 0x1F) (by decide) (by decide) rfl rfl rfl rfl
theorem vaddsN8 (f) : Statement (.vaddsN8 f) := of_v f (op := 0x20) (by decide) (by decide) rfl rfl rfl rfl
theorem vsubsI32 (f) : Statement (.vsubsI32 f) := of_v f (op := 0x21) (by decide) (by decide) rfl rfl rfl rfl
theorem vsubsI16 (f) : Statement (.vsubsI16 f) := of_v f (op := 0x22) (by decide) (by decide) rfl rfl rfl rfl
theorem vsubsI8 (f) : Statement (.vsubsI8 f) := of_v f (op := 0x23) (by decide) (by decide) rfl rfl rfl rfl
theorem vsubsN8 (f) : Statement (.vsubsN8 f) := of_v f (op := 0x24) (by decide) (by decide) rfl rfl rfl rfl
theorem vmulhI32 (f) : Statement (.vmulhI32 f) := of_v f (op := 0x25) (by decide) (by decide) rfl rfl rfl rfl
theorem vmulhN32 (f) : Statement (.vmulhN32 f) := of_v f (op := 0x26) (by decide) (by decide) rfl rfl rfl rfl
theorem vabsF32 (f) : Statement (.vabsF32 f) := of_v f (op := 0x27) (by decide) (by decide) rfl rfl rfl rfl
theorem vabsI32 (f) : Statement (.vabsI32 f) := of_v f (op := 0x28) (by decide) (by decide) rfl rfl rfl rfl
theorem vnegF32 (f) : Statement (.vnegF32 f) := of_v f (op := 0x29) (by decide) (by decide) rfl rfl rfl rfl
theorem vnegI32 (f) : Statement (.vnegI32 f) := of_v f (op := 0x2A) (by decide) (by decide) rfl rfl rfl rfl
theorem vrcp (f) : Statement (.vrcp f) := of_v f (op := 0x2B) (by decide) (by decide) rfl rfl rfl rfl
theorem vrsq (f) : Statement (.vrsq f) := of_v f (op := 0x2C) (by decide) (by decide) rfl rfl rfl rfl
theorem vexp2 (f) : Statement (.vexp2 f) := of_v f (op := 0x2D) (by decide) (by decide) rfl rfl rfl rfl
theorem vlog2 (f) : Statement (.vlog2 f) := of_v f (op := 0x2E) (by decide) (by decide) rfl rfl rfl rfl
theorem vsqrt (f) : Statement (.vsqrt f) := of_v f (op := 0x2F) (by decide) (by decide) rfl rfl rfl rfl
theorem vand (f) : Statement (.vand f) := of_v f (op := 0x30) (by decide) (by decide) rfl rfl rfl rfl
theorem vor (f) : Statement (.vor f) := of_v f (op := 0x31) (by decide) (by decide) rfl rfl rfl rfl
theorem vxor (f) : Statement (.vxor f) := of_v f (op := 0x32) (by decide) (by decide) rfl rfl rfl rfl
theorem vandn (f) : Statement (.vandn f) := of_v f (op := 0x33) (by decide) (by decide) rfl rfl rfl rfl
theorem vshl (f) : Statement (.vshl f) := of_v f (op := 0x34) (by decide) (by decide) rfl rfl rfl rfl
theorem vshr (f) : Statement (.vshr f) := of_v f (op := 0x35) (by decide) (by decide) rfl rfl rfl rfl
theorem vsar (f) : Statement (.vsar f) := of_v f (op := 0x36) (by decide) (by decide) rfl rfl rfl rfl
theorem vclz (f) : Statement (.vclz f) := of_v f (op := 0x37) (by decide) (by decide) rfl rfl rfl rfl
theorem vpopc (f) : Statement (.vpopc f) := of_v f (op := 0x38) (by decide) (by decide) rfl rfl rfl rfl
theorem vcmpF32Eq (f) : Statement (.vcmpF32Eq f) := of_v f (op := 0x40) (by decide) (by decide) rfl rfl rfl rfl
theorem vcmpF32Ne (f) : Statement (.vcmpF32Ne f) := of_v f (op := 0x41) (by decide) (by decide) rfl rfl rfl rfl
theorem vcmpF32Lt (f) : Statement (.vcmpF32Lt f) := of_v f (op := 0x42) (by decide) (by decide) rfl rfl rfl rfl
theorem vcmpF32Le (f) : Statement (.vcmpF32Le f) := of_v f (op := 0x43) (by decide) (by decide) rfl rfl rfl rfl
theorem vcmpF32Un (f) : Statement (.vcmpF32Un f) := of_v f (op := 0x44) (by decide) (by decide) rfl rfl rfl rfl
theorem vcmpI32Eq (f) : Statement (.vcmpI32Eq f) := of_v f (op := 0x45) (by decide) (by decide) rfl rfl rfl rfl
theorem vcmpI32Ne (f) : Statement (.vcmpI32Ne f) := of_v f (op := 0x46) (by decide) (by decide) rfl rfl rfl rfl
theorem vcmpI32Lt (f) : Statement (.vcmpI32Lt f) := of_v f (op := 0x47) (by decide) (by decide) rfl rfl rfl rfl
theorem vcmpI32Le (f) : Statement (.vcmpI32Le f) := of_v f (op := 0x48) (by decide) (by decide) rfl rfl rfl rfl
theorem vcmpN32Lt (f) : Statement (.vcmpN32Lt f) := of_v f (op := 0x49) (by decide) (by decide) rfl rfl rfl rfl
theorem vcmpN32Le (f) : Statement (.vcmpN32Le f) := of_v f (op := 0x4A) (by decide) (by decide) rfl rfl rfl rfl
theorem vsel (f) : Statement (.vsel f) := of_v f (op := 0x4B) (by decide) (by decide) rfl rfl rfl rfl
theorem mand (f) : Statement (.mand f) := of_v f (op := 0x4C) (by decide) (by decide) rfl rfl rfl rfl
theorem mor (f) : Statement (.mor f) := of_v f (op := 0x4D) (by decide) (by decide) rfl rfl rfl rfl
theorem mxor (f) : Statement (.mxor f) := of_v f (op := 0x4E) (by decide) (by decide) rfl rfl rfl rfl
theorem mandn (f) : Statement (.mandn f) := of_v f (op := 0x4F) (by decide) (by decide) rfl rfl rfl rfl
theorem mtos (f) : Statement (.mtos f) := of_v f (op := 0x50) (by decide) (by decide) rfl rfl rfl rfl
theorem stom (f) : Statement (.stom f) := of_v f (op := 0x51) (by decide) (by decide) rfl rfl rfl rfl
theorem vraddF32 (f) : Statement (.vraddF32 f) := of_v f (op := 0x60) (by decide) (by decide) rfl rfl rfl rfl
theorem vraddI32 (f) : Statement (.vraddI32 f) := of_v f (op := 0x61) (by decide) (by decide) rfl rfl rfl rfl
theorem vrmaxF32 (f) : Statement (.vrmaxF32 f) := of_v f (op := 0x62) (by decide) (by decide) rfl rfl rfl rfl
theorem vrmaxI32 (f) : Statement (.vrmaxI32 f) := of_v f (op := 0x63) (by decide) (by decide) rfl rfl rfl rfl
theorem vrminF32 (f) : Statement (.vrminF32 f) := of_v f (op := 0x64) (by decide) (by decide) rfl rfl rfl rfl
theorem vrminI32 (f) : Statement (.vrminI32 f) := of_v f (op := 0x65) (by decide) (by decide) rfl rfl rfl rfl
theorem vperm (f) : Statement (.vperm f) := of_v f (op := 0x66) (by decide) (by decide) rfl rfl rfl rfl
theorem vrot (f) : Statement (.vrot f) := of_v f (op := 0x67) (by decide) (by decide) rfl rfl rfl rfl
theorem vbcast (f) : Statement (.vbcast f) := of_v f (op := 0x68) (by decide) (by decide) rfl rfl rfl rfl
theorem vext (f) : Statement (.vext f) := of_v f (op := 0x69) (by decide) (by decide) rfl rfl rfl rfl
theorem vins (f) : Statement (.vins f) := of_v f (op := 0x6A) (by decide) (by decide) rfl rfl rfl rfl
theorem vmov (f) : Statement (.vmov f) := of_v f (op := 0x6B) (by decide) (by decide) rfl rfl rfl rfl
theorem vmovi (f) : Statement (.vmovi f) := of_v f (op := 0x6C) (by decide) (by decide) rfl rfl rfl rfl
theorem vcvtF16F32 (f) : Statement (.vcvtF16F32 f) := of_v f (op := 0x80) (by decide) (by decide) rfl rfl rfl rfl
theorem vcvtBf16F32 (f) : Statement (.vcvtBf16F32 f) := of_v f (op := 0x81) (by decide) (by decide) rfl rfl rfl rfl
theorem vcvtF32F16 (f) : Statement (.vcvtF32F16 f) := of_v f (op := 0x82) (by decide) (by decide) rfl rfl rfl rfl
theorem vcvtF32Bf16 (f) : Statement (.vcvtF32Bf16 f) := of_v f (op := 0x83) (by decide) (by decide) rfl rfl rfl rfl
theorem vcvtI32F32 (f) : Statement (.vcvtI32F32 f) := of_v f (op := 0x84) (by decide) (by decide) rfl rfl rfl rfl
theorem vcvtN32F32 (f) : Statement (.vcvtN32F32 f) := of_v f (op := 0x85) (by decide) (by decide) rfl rfl rfl rfl
theorem vcvtF32I32 (f) : Statement (.vcvtF32I32 f) := of_v f (op := 0x86) (by decide) (by decide) rfl rfl rfl rfl
theorem vcvtF32N32 (f) : Statement (.vcvtF32N32 f) := of_v f (op := 0x87) (by decide) (by decide) rfl rfl rfl rfl
theorem vtologLb8 (f) : Statement (.vtologLb8 f) := of_v f (op := 0x88) (by decide) (by decide) rfl rfl rfl rfl
theorem vtologLb6 (f) : Statement (.vtologLb6 f) := of_v f (op := 0x89) (by decide) (by decide) rfl rfl rfl rfl
theorem vtologLb4 (f) : Statement (.vtologLb4 f) := of_v f (op := 0x8A) (by decide) (by decide) rfl rfl rfl rfl
theorem vtologLm16 (f) : Statement (.vtologLm16 f) := of_v f (op := 0x8B) (by decide) (by decide) rfl rfl rfl rfl
theorem vfromlogLb8 (f) : Statement (.vfromlogLb8 f) := of_v f (op := 0x8C) (by decide) (by decide) rfl rfl rfl rfl
theorem vfromlogLb6 (f) : Statement (.vfromlogLb6 f) := of_v f (op := 0x8D) (by decide) (by decide) rfl rfl rfl rfl
theorem vfromlogLb4 (f) : Statement (.vfromlogLb4 f) := of_v f (op := 0x8E) (by decide) (by decide) rfl rfl rfl rfl
theorem vfromlogLm16 (f) : Statement (.vfromlogLm16 f) := of_v f (op := 0x8F) (by decide) (by decide) rfl rfl rfl rfl
theorem vbpackLb8 (f) : Statement (.vbpackLb8 f) := of_v f (op := 0x90) (by decide) (by decide) rfl rfl rfl rfl
theorem vbpackLb6 (f) : Statement (.vbpackLb6 f) := of_v f (op := 0x91) (by decide) (by decide) rfl rfl rfl rfl
theorem vbpackLb4 (f) : Statement (.vbpackLb4 f) := of_v f (op := 0x92) (by decide) (by decide) rfl rfl rfl rfl
theorem vbunpLb8 (f) : Statement (.vbunpLb8 f) := of_v f (op := 0x93) (by decide) (by decide) rfl rfl rfl rfl
theorem vbunpLb6 (f) : Statement (.vbunpLb6 f) := of_v f (op := 0x94) (by decide) (by decide) rfl rfl rfl rfl
theorem vbunpLb4 (f) : Statement (.vbunpLb4 f) := of_v f (op := 0x95) (by decide) (by decide) rfl rfl rfl rfl
theorem vtordwF32 (f) : Statement (.vtordwF32 f) := of_v f (op := 0x96) (by decide) (by decide) rfl rfl rfl rfl
theorem vtordwA64 (f) : Statement (.vtordwA64 f) := of_v f (op := 0x97) (by decide) (by decide) rfl rfl rfl rfl
theorem vfromrdwF32 (f) : Statement (.vfromrdwF32 f) := of_v f (op := 0x98) (by decide) (by decide) rfl rfl rfl rfl
theorem vfromrdwA64 (f) : Statement (.vfromrdwA64 f) := of_v f (op := 0x99) (by decide) (by decide) rfl rfl rfl rfl
theorem vaddrdw (f) : Statement (.vaddrdw f) := of_v f (op := 0x9A) (by decide) (by decide) rfl rfl rfl rfl
theorem vcvtaF32 (f) : Statement (.vcvtaF32 f) := of_v f (op := 0x9B) (by decide) (by decide) rfl rfl rfl rfl
theorem vcvtaA64 (f) : Statement (.vcvtaA64 f) := of_v f (op := 0x9C) (by decide) (by decide) rfl rfl rfl rfl
theorem nop : Statement .nop := of_word rfl (by decide) fun _ => rfl
theorem nopF : Statement .nopF := of_word rfl (by decide) fun _ => rfl
theorem nopC : Statement .nopC := of_word rfl (by decide) fun _ => rfl
theorem regionOpen : Statement .regionOpen := of_none rfl
theorem bankLock : Statement .bankLock := of_none rfl
theorem wload (f) : Statement (.wload f) := of_m f (op := 0x01) (by decide) (by decide) rfl rfl rfl rfl
theorem wloadw (f) : Statement (.wloadw f) := of_m f (op := 0x02) (by decide) (by decide) rfl rfl rfl rfl
theorem streamAdd (f) : Statement (.streamAdd f) := of_m f (op := 0x03) (by decide) (by decide) rfl rfl rfl rfl
theorem streamOvw (f) : Statement (.streamOvw f) := of_m f (op := 0x04) (by decide) (by decide) rfl rfl rfl rfl
theorem streamTAdd (f) : Statement (.streamTAdd f) := of_m f (op := 0x05) (by decide) (by decide) rfl rfl rfl rfl
theorem streamTOvw (f) : Statement (.streamTOvw f) := of_m f (op := 0x06) (by decide) (by decide) rfl rfl rfl rfl
theorem drain (f) : Statement (.drain f) := of_m f (op := 0x07) (by decide) (by decide) rfl rfl rfl rfl
theorem drainRdw (f) : Statement (.drainRdw f) := of_m f (op := 0x08) (by decide) (by decide) rfl rfl rfl rfl
theorem accclr (f) : Statement (.accclr f) := of_m f (op := 0x09) (by decide) (by decide) rfl rfl rfl rfl
theorem anchor (f) : Statement (.anchor f) := of_m f (op := 0x0A) (by decide) (by decide) rfl rfl rfl rfl
theorem oclaim (f) : Statement (.oclaim f) := of_m f (op := 0x0B) (by decide) (by decide) rfl rfl rfl rfl
theorem orelease (f) : Statement (.orelease f) := of_m f (op := 0x0C) (by decide) (by decide) rfl rfl rfl rfl
theorem fmtsel (f) : Statement (.fmtsel f) := of_m f (op := 0x0D) (by decide) (by decide) rfl rfl rfl rfl
theorem accpin (f) : Statement (.accpin f) := of_m f (op := 0x0E) (by decide) (by decide) rfl rfl rfl rfl
theorem accpinClr (f) : Statement (.accpinClr f) := of_m f (op := 0x0F) (by decide) (by decide) rfl rfl rfl rfl
theorem copy (f) : Statement (.copy f) := of_x f (op := 0x01) (by decide) (by decide) rfl rfl rfl rfl
theorem gather (f) : Statement (.gather f) := of_x f (op := 0x02) (by decide) (by decide) rfl rfl rfl rfl
theorem scatter (f) : Statement (.scatter f) := of_x f (op := 0x03) (by decide) (by decide) rfl rfl rfl rfl
theorem get (f) : Statement (.get f) := of_x f (op := 0x04) (by decide) (by decide) rfl rfl rfl rfl
theorem put (f) : Statement (.put f) := of_x f (op := 0x05) (by decide) (by decide) rfl rfl rfl rfl
theorem layreg (f) : Statement (.layreg f) := of_x f (op := 0x06) (by decide) (by decide) rfl rfl rfl rfl
theorem laydrop (f) : Statement (.laydrop f) := of_x f (op := 0x07) (by decide) (by decide) rfl rfl rfl rfl
theorem wmset (f) : Statement (.wmset f) := of_x f (op := 0x08) (by decide) (by decide) rfl rfl rfl rfl
theorem smalloc (f) : Statement (.smalloc f) := of_x f (op := 0x10) (by decide) (by decide) rfl rfl rfl rfl
theorem smfree (f) : Statement (.smfree f) := of_x f (op := 0x11) (by decide) (by decide) rfl rfl rfl rfl
theorem smquery (f) : Statement (.smquery f) := of_x f (op := 0x12) (by decide) (by decide) rfl rfl rfl rfl
theorem smld (f) : Statement (.smld f) := of_x f (op := 0x13) (by decide) (by decide) rfl rfl rfl rfl
theorem smldAcq (f) : Statement (.smldAcq f) := of_x f (op := 0x14) (by decide) (by decide) rfl rfl rfl rfl
theorem smst (f) : Statement (.smst f) := of_x f (op := 0x15) (by decide) (by decide) rfl rfl rfl rfl
theorem smstRel (f) : Statement (.smstRel f) := of_x f (op := 0x16) (by decide) (by decide) rfl rfl rfl rfl
theorem smatomAdd (f) : Statement (.smatomAdd f) := of_x f (op := 0x17) (by decide) (by decide) rfl rfl rfl rfl
theorem smatomSwap (f) : Statement (.smatomSwap f) := of_x f (op := 0x18) (by decide) (by decide) rfl rfl rfl rfl
theorem smatomCas (f) : Statement (.smatomCas f) := of_x f (op := 0x19) (by decide) (by decide) rfl rfl rfl rfl
theorem smatomMinI (f) : Statement (.smatomMinI f) := of_x f (op := 0x1A) (by decide) (by decide) rfl rfl rfl rfl
theorem smatomMaxI (f) : Statement (.smatomMaxI f) := of_x f (op := 0x1B) (by decide) (by decide) rfl rfl rfl rfl
theorem smatomMinN (f) : Statement (.smatomMinN f) := of_x f (op := 0x1C) (by decide) (by decide) rfl rfl rfl rfl
theorem smatomMaxN (f) : Statement (.smatomMaxN f) := of_x f (op := 0x1D) (by decide) (by decide) rfl rfl rfl rfl
theorem burnishUpdate (f) : Statement (.burnishUpdate f) := of_x f (op := 0x20) (by decide) (by decide) rfl rfl rfl rfl
theorem burnishRecipeLoad (f) : Statement (.burnishRecipeLoad f) := of_x f (op := 0x20) (by decide) (by decide) rfl rfl rfl rfl
theorem send (f) : Statement (.send f) := of_f f (op := 0x01) (by decide) (by decide) rfl rfl rfl rfl
theorem recv (f) : Statement (.recv f) := of_f f (op := 0x02) (by decide) (by decide) rfl rfl rfl rfl
theorem recvaddReg (f) : Statement (.recvaddReg f) := of_f f (op := 0x03) (by decide) (by decide) rfl rfl rfl rfl
theorem recvaddAcc (f) : Statement (.recvaddAcc f) := of_f f (op := 0x04) (by decide) (by decide) rfl rfl rfl rfl
theorem relay (f) : Statement (.relay f) := of_f f (op := 0x05) (by decide) (by decide) rfl rfl rfl rfl
theorem br (f) : Statement (.br f) := of_j f (op := 0x01) (by decide) (by decide) rfl rfl rfl rfl
theorem brpT (f) : Statement (.brpT f) := of_c f (op := 0x02) (by decide) (by decide) rfl rfl rfl rfl rfl
theorem brpF (f) : Statement (.brpF f) := of_c f (op := 0x03) (by decide) (by decide) rfl rfl rfl rfl rfl
theorem bri (f) : Statement (.bri f) := of_c f (op := 0x04) (by decide) (by decide) rfl rfl rfl rfl rfl
theorem call (f) : Statement (.call f) := of_j f (op := 0x05) (by decide) (by decide) rfl rfl rfl rfl
theorem calli (f) : Statement (.calli f) := of_c f (op := 0x06) (by decide) (by decide) rfl rfl rfl rfl rfl
theorem ret (f) : Statement (.ret f) := of_c f (op := 0x07) (by decide) (by decide) rfl rfl rfl rfl rfl
theorem loop (f) : Statement (.loop f) := of_c f (op := 0x08) (by decide) (by decide) rfl rfl rfl rfl rfl
theorem lend (f) : Statement (.lend f) := of_c f (op := 0x09) (by decide) (by decide) rfl rfl rfl rfl rfl
theorem semw (f) : Statement (.semw f) := of_c f (op := 0x10) (by decide) (by decide) rfl rfl rfl rfl rfl
theorem sems (f) : Statement (.sems f) := of_c f (op := 0x11) (by decide) (by decide) rfl rfl rfl rfl rfl
theorem phregSig (f) : Statement (.phregSig f) := of_c f (op := 0x12) (by decide) (by decide) rfl rfl rfl rfl rfl
theorem phregWait (f) : Statement (.phregWait f) := of_c f (op := 0x13) (by decide) (by decide) rfl rfl rfl rfl rfl
theorem phregSw (f) : Statement (.phregSw f) := of_c f (op := 0x14) (by decide) (by decide) rfl rfl rfl rfl rfl
theorem pharr (f) : Statement (.pharr f) := of_c f (op := 0x15) (by decide) (by decide) rfl rfl rfl rfl rfl
theorem phwait (f) : Statement (.phwait f) := of_c f (op := 0x16) (by decide) (by decide) rfl rfl rfl rfl rfl
theorem phdrop (f) : Statement (.phdrop f) := of_c f (op := 0x17) (by decide) (by decide) rfl rfl rfl rfl rfl
theorem fence (f) : Statement (.fence f) := of_c f (op := 0x18) (by decide) (by decide) rfl rfl rfl rfl rfl
theorem yield (f) : Statement (.yield f) := of_c f (op := 0x19) (by decide) (by decide) rfl rfl rfl rfl rfl
theorem halt (f) : Statement (.halt f) := of_c f (op := 0x1A) (by decide) (by decide) rfl rfl rfl rfl rfl
theorem align (f) : Statement (.align f) := of_c f (op := 0x20) (by decide) (by decide) rfl rfl rfl rfl rfl
theorem ftrbeg (f) : Statement (.ftrbeg f) := of_c f (op := 0x21) (by decide) (by decide) rfl rfl rfl rfl rfl
theorem ftrend (f) : Statement (.ftrend f) := of_c f (op := 0x22) (by decide) (by decide) rfl rfl rfl rfl rfl
theorem trap (f) : Statement (.trap f) := of_c f (op := 0x30) (by decide) (by decide) rfl rfl rfl rfl rfl
theorem eret (f) : Statement (.eret f) := of_c f (op := 0x31) (by decide) (by decide) rfl rfl rfl rfl rfl
theorem eres (f) : Statement (.eres f) := of_c f (op := 0x32) (by decide) (by decide) rfl rfl rfl rfl rfl
theorem park (f) : Statement (.park f) := of_c f (op := 0x33) (by decide) (by decide) rfl rfl rfl rfl rfl
theorem unparkReturn (f) : Statement (.unparkReturn f) := of_c f (op := 0x34) (by decide) (by decide) rfl rfl rfl rfl rfl
theorem unparkResume (f) : Statement (.unparkResume f) := of_c f (op := 0x34) (by decide) (by decide) rfl rfl rfl rfl rfl
theorem unparkRedirect (f) : Statement (.unparkRedirect f) := of_c f (op := 0x34) (by decide) (by decide) rfl rfl rfl rfl rfl
theorem unparkEnd (f) : Statement (.unparkEnd f) := of_c f (op := 0x34) (by decide) (by decide) rfl rfl rfl rfl rfl
theorem resultLanding : Statement .resultLanding := of_none rfl
theorem lateResultLanding : Statement .lateResultLanding := of_none rfl
theorem lazyRegisterFill : Statement .lazyRegisterFill := of_none rfl
theorem matrixCommandBegin : Statement .matrixCommandBegin := of_none rfl
theorem matrixCommandCompletion : Statement .matrixCommandCompletion := of_none rfl
theorem engineStep : Statement .engineStep := of_none rfl
theorem engineFaultTaken : Statement .engineFaultTaken := of_none rfl
theorem copyCommandBegin : Statement .copyCommandBegin := of_none rfl
theorem copyCommandCompletion : Statement .copyCommandCompletion := of_none rfl
theorem burnishBegin : Statement .burnishBegin := of_none rfl
theorem burnishCompletion : Statement .burnishCompletion := of_none rfl
theorem fabricCommandCompletion : Statement .fabricCommandCompletion := of_none rfl
theorem beatArrival : Statement .beatArrival := of_none rfl
theorem translationWalkComplete : Statement .translationWalkComplete := of_none rfl
theorem farAcquireReply : Statement .farAcquireReply := of_none rfl
theorem trapEntry : Statement .trapEntry := of_none rfl
theorem faultQueueRetest : Statement .faultQueueRetest := of_none rfl
theorem quantumExpiry : Statement .quantumExpiry := of_none rfl
theorem regionLimitExpiry : Statement .regionLimitExpiry := of_none rfl
theorem ftrTimerExpiry : Statement .ftrTimerExpiry := of_none rfl
theorem progressWatchdog : Statement .progressWatchdog := of_none rfl
theorem preemptionRequest : Statement .preemptionRequest := of_none rfl
theorem lazyPreemption : Statement .lazyPreemption := of_none rfl
theorem urgentPreemption : Statement .urgentPreemption := of_none rfl
theorem contextSave : Statement .contextSave := of_none rfl
theorem contextRestore : Statement .contextRestore := of_none rfl
theorem launchRecordPost : Statement .launchRecordPost := of_none rfl
theorem launchHeadCheck : Statement .launchHeadCheck := of_none rfl
theorem launchFire : Statement .launchFire := of_none rfl
theorem instanceStart : Statement .instanceStart := of_none rfl
theorem memberPlace : Statement .memberPlace := of_none rfl
theorem contextEnd : Statement .contextEnd := of_none rfl
theorem compaction : Statement .compaction := of_none rfl
theorem masterElection : Statement .masterElection := of_none rfl
theorem scrub : Statement .scrub := of_none rfl
theorem beaconSend : Statement .beaconSend := of_none rfl
theorem beaconReceive : Statement .beaconReceive := of_none rfl
theorem parentBeaconTimeout : Statement .parentBeaconTimeout := of_none rfl
theorem stretchAnnounce : Statement .stretchAnnounce := of_none rfl
theorem powerWindowEnd : Statement .powerWindowEnd := of_none rfl
theorem clockStepChange : Statement .clockStepChange := of_none rfl
theorem dieFence : Statement .dieFence := of_none rfl
theorem keyDieRedesignation : Statement .keyDieRedesignation := of_none rfl
theorem linkDown : Statement .linkDown := of_none rfl
theorem linkTraining : Statement .linkTraining := of_none rfl
theorem flitReplay : Statement .flitReplay := of_none rfl
theorem remoteRequestTimeout : Statement .remoteRequestTimeout := of_none rfl
theorem remoteRequestArrival : Statement .remoteRequestArrival := of_none rfl
theorem switchLossDeclared : Statement .switchLossDeclared := of_none rfl
theorem mirrorFailoverComplete : Statement .mirrorFailoverComplete := of_none rfl
theorem sheetTableUpdate : Statement .sheetTableUpdate := of_none rfl
theorem patrolRewrite : Statement .patrolRewrite := of_none rfl
theorem packageReset : Statement .packageReset := of_none rfl
theorem nonRocePacket : Statement .nonRocePacket := of_none rfl
theorem rdmaRead : Statement .rdmaRead := of_none rfl
theorem rdmaWrite : Statement .rdmaWrite := of_none rfl
theorem tenset : Statement .tenset := of_none rfl
theorem rngset : Statement .rngset := of_none rfl
theorem inval : Statement .inval := of_none rfl
theorem invalReply : Statement .invalReply := of_none rfl
theorem pinq : Statement .pinq := of_none rfl
theorem keyload : Statement .keyload := of_none rfl
theorem keydrop : Statement .keydrop := of_none rfl
theorem keydropReply : Statement .keydropReply := of_none rfl
theorem quota : Statement .quota := of_none rfl
theorem qpset : Statement .qpset := of_none rfl
theorem lsem : Statement .lsem := of_none rfl
theorem status : Statement .status := of_none rfl
theorem attest : Statement .attest := of_none rfl
theorem pwrq : Statement .pwrq := of_none rfl
theorem pwrset : Statement .pwrset := of_none rfl
theorem errq : Statement .errq := of_none rfl
theorem fwload : Statement .fwload := of_none rfl
theorem reset : Statement .reset := of_none rfl
theorem regset : Statement .regset := of_none rfl
theorem regsetReply : Statement .regsetReply := of_none rfl
theorem illegalCodeWord : Statement .illegalCodeWord := of_none rfl
theorem unassignedOpcode : Statement .unassignedOpcode := of_none rfl
theorem contextLost : Statement .contextLost := of_none rfl
theorem resetnAssert : Statement .resetnAssert := of_none rfl
theorem unknownManagementOpc : Statement .unknownManagementOpc := of_none rfl

end Encoding

end Sys2Proof.Laws
end

