-- ==== Sys2Proof/Laws/Scalar.lean ====
section
/-! SUPPORT. What each shape of S form does when its bundle may issue (05 R117 to R131): the result it puts in flight, or the trap it
takes. -/

namespace Sys2Proof.Machine

variable {f : SSlot} {s : State}

/-- The result of a form of two operands (05 R121). -/
abbrev sBinaryResult (f : SSlot) (s : State) (lat : Nat) (op : Word → Word → Word) : Result :=
  ⟨lat, .scalar f.d.toNat { val := op (s.sOp f f.sa).val (s.sOp f f.sb).val, poison := (s.sOp f f.sa).poison || (s.sOp f f.sb).poison }, 0⟩

theorem sBinary_issued {lat : Nat} {op : Word → Word → Word} (ho : Opens s) (hg : s.guard f.g f.gn = true)
    (hu : Unhindered s ([sBinaryResult f s lat op].map (Result.flight s.now)) []) :
    ∃ t, sBinary f lat op s = .next t ∧ Issued s t [sBinaryResult f s lat op] :=
  issueOp_issued ho (by simp only [guarded_nil, hg, if_true]; rfl) hu

/-- The result of a form of one operand (05 R121). -/
abbrev sUnaryResult (f : SSlot) (s : State) (op : Word → Word) : Result :=
  ⟨1, .scalar f.d.toNat { val := op (s.sOp f f.sa).val, poison := (s.sOp f f.sa).poison }, 0⟩

theorem sUnary_issued {op : Word → Word} (ho : Opens s) (hg : s.guard f.g f.gn = true)
    (hu : Unhindered s ([sUnaryResult f s op].map (Result.flight s.now)) []) :
    ∃ t, sUnary f op s = .next t ∧ Issued s t [sUnaryResult f s op] :=
  issueOp_issued ho (by simp only [guarded_nil, hg, if_true]; rfl) hu

/-- The group check of an even pair (05 R116). -/
theorem guarded_pair (s : State) (g : BitVec 4) (gn : BitVec 1) (d : Nat) (p : Plan) (hg : s.guard g gn = true) :
    guarded s g gn [.pair d] p =
      if d % 2 = 0 then p
      else { p with checks := trapCheck cRegGroup (BitVec.ofNat 64 d) phGroup :: p.checks } := by
  have h2 : absentChecks s.cur [.pair d] = [] := by simp [absentChecks, GroupUse.members, failIf]
  simp only [guarded, hg, if_true, Plan.withGroups, h2]
  split <;> rename_i h
  · simp [groupChecks, GroupUse.failing, GroupUse.aligned, GroupUse.members, h]
  · simp [groupChecks, GroupUse.failing, GroupUse.aligned, h]

/-- The two halves of a 128-bit product (05 R116). -/
abbrev sPairResults (f : SSlot) (s : State) (op : Word → Word → BitVec 128) : List Result :=
  let r := op (s.sOp f f.sa).val (s.sOp f f.sb).val
  let p := (s.sOp f f.sa).poison || (s.sOp f f.sb).poison
  [⟨4, .scalar f.d.toNat { val := r.truncate 64, poison := p }, 0⟩,
   ⟨4, .scalar (f.d.toNat + 1) { val := (r >>> 64).truncate 64, poison := p }, 0⟩]

theorem sPair_issued {op : Word → Word → BitVec 128} (ho : Opens s) (hg : s.guard f.g f.gn = true) (hd : f.d.toNat % 2 = 0)
    (hu : Unhindered s ((sPairResults f s op).map (Result.flight s.now)) []) :
    ∃ t, sPair f op s = .next t ∧ Issued s t (sPairResults f s op) :=
  issueOp_issued ho (by simp only [guarded_pair _ _ _ _ _ hg, hd, if_true]) hu

theorem sPair_trapped {op : Word → Word → BitVec 128} (ho : Opens s) (hg : s.guard f.g f.gn = true) (hd : f.d.toNat % 2 = 1)
    (hu : Unhindered s ((sPairResults f s op).map (Result.flight s.now)) []) :
    ∃ t, sPair f op s = .next t ∧ Trapped s t cRegGroup (BitVec.ofNat 64 f.d.toNat) := by
  refine issueOp_trapped ho (guarded_pair s f.g f.gn _ _ hg) (ph := phGroup) ?_ ?_ ?_ ?_ ?_
  all_goals simp only [hd, Nat.one_ne_zero, if_false]
  exact hu

/-- The result of a saturating form (05 R124). -/
abbrev sSaturateResult (f : SSlot) (s : State) (signed sub : Bool) : Result :=
  let r := satRule signed sub (s.sOp f f.sa).val (s.sOp f f.sb).val
  let p := (s.sOp f f.sa).poison || (s.sOp f f.sb).poison
  ⟨1, .scalar f.d.toNat { val := r.1, poison := p }, flagsUnless p (flagIf r.2 flSAT)⟩

theorem sSaturate_issued {signed sub : Bool} (ho : Opens s) (hg : s.guard f.g f.gn = true)
    (hu : Unhindered s ([sSaturateResult f s signed sub].map (Result.flight s.now)) []) :
    ∃ t, sSaturate f signed sub s = .next t ∧ Issued s t [sSaturateResult f s signed sub] :=
  issueOp_issued ho (by simp only [guarded_nil, hg, if_true]; rfl) hu

/-- The result of a form that writes a predicate (05 R122). -/
abbrev sCompareResult (f : SSlot) (s : State) (op : Word → Word → Bool) : Result :=
  ⟨1, .pred f.d.toNat (op (s.sOp f f.sa).val (s.sOp f f.sb).val), 0⟩

theorem sCompare_issued {op : Word → Word → Bool} (ho : Opens s) (hg : s.guard f.g f.gn = true)
    (ha : (s.sOp f f.sa).poison = false) (hb : (s.sOp f f.sb).poison = false)
    (hu : Unhindered s ([sCompareResult f s op].map (Result.flight s.now)) []) :
    ∃ t, sCompare f op s = .next t ∧ Issued s t [sCompareResult f s op] :=
  issueOp_issued ho (by simp only [guarded_nil, hg, if_true, ha, hb]; rfl) hu

/-- A poisoned operand of a form that writes a predicate traps, the first operand before the second (05 R117). -/
theorem sCompare_trapped {op : Word → Word → Bool} (ho : Opens s) (hg : s.guard f.g f.gn = true)
    (hp : (s.sOp f f.sa).poison = true ∨ (s.sOp f f.sb).poison = true)
    (hu : Unhindered s ([sCompareResult f s op].map (Result.flight s.now)) []) :
    ∃ t, sCompare f op s = .next t ∧
      Trapped s t cPoison (if (s.sOp f f.sa).poison then (s.sOp f f.sa).val else (s.sOp f f.sb).val) := by
  refine issueOp_trapped ho (guarded_true hg) (ph := phOther) ?_ ?_ rfl rfl rfl
  · cases ha : (s.sOp f f.sa).poison
    · simp [hp.resolve_left (by simp [ha])]
    · rfl
  · exact hu

/-- The result of a form that reads its destination (05 R120). -/
theorem sInsert_issued {op : Word → Word} {p : Bool} (ho : Opens s) (hg : s.guard f.g f.gn = true)
    (hu : Unhindered s ([(⟨1, .scalar f.d.toNat { val := op (s.cur.sreg f.d.toNat).val, poison := p || (s.cur.sreg f.d.toNat).poison }, 0⟩ :
      Result)].map (Result.flight s.now)) []) :
    ∃ t, sInsert f op p s = .next t ∧
      Issued s t [⟨1, .scalar f.d.toNat { val := op (s.cur.sreg f.d.toNat).val, poison := p || (s.cur.sreg f.d.toNat).poison }, 0⟩] :=
  issueOp_issued ho (by simp only [guarded_nil, hg, if_true]; rfl) hu

/-- The result of a form of two predicates (05 R126). -/
theorem sPredLogic_issued {op : Bool → Bool → Bool} (ho : Opens s) (hg : s.guard f.g f.gn = true)
    (hu : Unhindered s ([(⟨1, .pred f.d.toNat (op (s.cur.pred (bits f.imm.toNat 3 0)) (s.cur.pred (bits f.imm.toNat 7 4))), 0⟩ :
      Result)].map (Result.flight s.now)) []) :
    ∃ t, sPredLogic f op s = .next t ∧
      Issued s t [⟨1, .pred f.d.toNat (op (s.cur.pred (bits f.imm.toNat 3 0)) (s.cur.pred (bits f.imm.toNat 7 4))), 0⟩] :=
  issueOp_issued ho (by simp only [guarded_nil, hg, if_true]; rfl) hu

/-- What a control-register form lands (05 R130): the old value, and for a write form the new one. -/
def sCsrResults (f : SSlot) (s : State) (write : Option (Word → Word → Word)) : List Result :=
  let old := s.csrRead f.imm.toNat
  ⟨1, .scalar f.d.toNat { val := old }, 0⟩ ::
    match write with
    | none => []
    | some op => [⟨1, .csr f.imm.toNat (op old (s.sOp f f.sa).val), 0⟩]

/-- The check that a control-register form fails first, if any (05 R130). -/
def sCsrCheck (f : SSlot) (s : State) (write : Option (Word → Word → Word)) : Option (Nat × Word × Nat) :=
  let n := f.imm.toNat
  let sup := s.issue.lvl == 1#1
  if s.issue.lvl == 0#1 && !csrUserReads n then some (cPrivilege, BitVec.ofNat 64 n, phPrivilege)
  else match write with
    | none => none
    | some op =>
      if !csrWritable n sup then some (cPrivilege, BitVec.ofNat 64 n, phPrivilege)
      else if (s.sOp f f.sa).poison then some (cPoison, (s.sOp f f.sa).val, phOther)
      else if !csrAccepts n sup (s.csrRead n) (op (s.csrRead n) (s.sOp f f.sa).val) then some (cControlValue, BitVec.ofNat 64 n, phOther)
      else none

/-- What a control-register form does (05 R130): it lands the old value and the new one, or takes the trap of its first failing check. -/
theorem sCsr_does {write : Option (Word → Word → Word)} (ho : Opens s) (hg : s.guard f.g f.gn = true)
    (hu : Unhindered s ((sCsrResults f s write).map (Result.flight s.now)) []) :
    ∃ t, sCsr f write s = .next t ∧
      match sCsrCheck f s write with
      | none => Issued s t (sCsrResults f s write)
      | some (cause, addr, _) => Trapped s t cause addr := by
  cases h : sCsrCheck f s write with
  | none =>
    refine issueOp_issued ho ?_ hu
    simp only [guarded_nil, hg, if_true]
    cases write <;> simp only [sCsrCheck, sCsrResults, firstOf_failIf] at h ⊢ <;> (repeat' split at h) <;>
      simp only [*, if_false, Bool.false_eq_true, failIf_false, firstOf_nil, reduceCtorEq] at *
  | some e =>
    obtain ⟨cause, addr, ph⟩ := e
    refine issueOp_trapped ho (guarded_true hg) (ph := ph) ?_ ?_ ?_ ?_ ?_
    · cases write <;> simp only [sCsrCheck, firstOf_failIf] at h ⊢ <;> (repeat' split at h) <;> cases h <;>
        simp only [*, if_true, if_false, Bool.false_eq_true, failIf_true]
    · cases write <;> exact hu
    all_goals cases write <;> rfl

end Sys2Proof.Machine
end

