-- ==== Sys2Proof/Laws/Vector.lean ====
section
/-! SUPPORT. What each shape of V form does when its bundle may issue (06 R133 to R153): the mask rule of a destination unit, and the
result each shape puts in flight. -/

namespace Sys2Proof.Machine

variable {f : VSlot} {s : State}

/-! ### The mask rule (06 R141) -/

theorem one_of_ne_zero {b : BitVec 1} (h : b ≠ 0#1) : b = 1#1 := by
  rcases BitVec.eq_zero_or_eq_one b with h' | h'
  · exact absurd h' h
  · exact h'

/-- What a unit takes and which flags it raises. -/
theorem govern_eq (l : Nat) (x : LaneVal) (fl : Flags) :
    govern (vEnv s f) l x fl =
      (unitOf s f l x,
        if (f.me = 0#1 ∨ ((s.cur.mreg (s.cur.meff f.mkr.toNat)).bits.getLsbD l = true ∧
          (s.cur.mreg (s.cur.meff f.mkr.toNat)).poison.getLsbD l = false)) ∧ x.poison = false then fl else 0) := by
  simp only [govern, vEnv, unitOf, flagsUnless]
  by_cases hm : f.me = 0#1
  · simp [hm]
    cases x.poison <;> rfl
  · have h1 := one_of_ne_zero hm
    by_cases hp : (s.cur.mreg (s.cur.meff f.mkr.toNat)).poison.getLsbD l = true
    · simp [h1, hp]
    · by_cases hb : (s.cur.mreg (s.cur.meff f.mkr.toNat)).bits.getLsbD l = true
      · by_cases hx : x.poison = true <;> simp [h1, hp, hb, hx]
      · by_cases hz : f.mz = 0#1
        · simp [h1, hp, hb, hz]
        · simp [h1, hp, hb, one_of_ne_zero hz]

/-- The result of a form that computes lane by lane. -/
theorem lanesResult_eq (lat dst : Nat) (compute : Nat → LaneVal × Flags) :
    lanesResult (vEnv s f) lat dst compute =
      ⟨lat, .vector dst (lanesOut s f fun l => (compute l).1), unitFlags s f 64 (fun l => (compute l).1) fun l => (compute l).2⟩ := by
  simp only [lanesResult, govern_eq, List.map_map, lanesOut, unitFlags]
  rfl

/-! ### Groups (06 R135 to R138) -/

theorem groups_cons {k : Ctx} {n : Nat} {gs : List GroupUse} (h : Named k n) (hg : groupChecks k gs = []) (ha : absentChecks k gs = []) :
    groupChecks k (.vec n 1 :: gs) = [] ∧ absentChecks k (.vec n 1 :: gs) = [] := by
  obtain ⟨h1, h2⟩ := checks_named h
  constructor
  · have e1 : GroupUse.failing k (.vec n 1) = none := by
      cases he : GroupUse.failing k (.vec n 1) with
      | none => rfl
      | some m => simp [groupChecks, he] at h1
    simp only [groupChecks, List.filterMap_cons, e1]
    exact hg
  · have e2 : (GroupUse.vec n 1).members.any (fun m => k.absent.contains (k.veff m)) = false := by
      cases he : (GroupUse.vec n 1).members.any (fun m => k.absent.contains (k.veff m)) with
      | false => rfl
      | true => simp only [absentChecks, List.any_cons, List.any_nil, he, Bool.true_or, failIf_true, reduceCtorEq] at h2
    simp only [absentChecks, List.any_cons, e2, Bool.false_or]
    exact ha

theorem groups_nil (k : Ctx) : groupChecks k [] = [] ∧ absentChecks k [] = [] := ⟨rfl, rfl⟩

/-- A plan whose groups may be named is the plan of its results. -/
theorem vPlan_named {gs : List GroupUse} {rs : List Result} (h : groupChecks s.cur gs = [] ∧ absentChecks s.cur gs = []) :
    vPlan s gs rs = { results := rs } := by
  simp [vPlan, Plan.withGroups, h.1, h.2]

theorem gsUnary_named (hd : Named s.cur f.vd.toNat) (ha : Named s.cur f.va.toNat) :
    groupChecks s.cur (gsUnary f) = [] ∧ absentChecks s.cur (gsUnary f) = [] :=
  groups_cons hd (groups_cons ha rfl rfl).1 (groups_cons ha rfl rfl).2

theorem bGroup_named (hb : f.vs = 0#1 → Named s.cur f.vb.toNat) {gs : List GroupUse}
    (h : groupChecks s.cur gs = [] ∧ absentChecks s.cur gs = []) :
    groupChecks s.cur (bGroup f ++ gs) = [] ∧ absentChecks s.cur (bGroup f ++ gs) = [] := by
  unfold bGroup
  split
  · exact h
  · rename_i hv
    have : f.vs = 0#1 := by
      rcases BitVec.eq_zero_or_eq_one f.vs with h' | h'
      · exact h'
      · exact absurd h' hv
    exact groups_cons (hb this) h.1 h.2

theorem gsBinary_named (h : NamesBinary s f) {gs : List GroupUse} (hg : groupChecks s.cur gs = [] ∧ absentChecks s.cur gs = []) :
    groupChecks s.cur (gsBinary f ++ gs) = [] ∧ absentChecks s.cur (gsBinary f ++ gs) = [] := by
  have hb := bGroup_named h.2.2 hg
  have ha := groups_cons h.2.1 hb.1 hb.2
  exact groups_cons h.1 ha.1 ha.2

/-! ### Shapes -/

/-- A form over the lanes of VA (06 R141). -/
theorem vUnary_issued {lat : Nat} {op : VEnv → Nat → Nat → Nat × Flags} (ho : Opens s) (hd : Named s.cur f.vd.toNat)
    (ha : Named s.cur f.va.toNat) (x : Nat → LaneVal) (fl : Nat → Flags)
    (hx : ∀ l, (({ val := BitVec.ofNat 32 (op (vEnv s f) l ((s.vsrc f.va).lane l).val.toNat).1, poison := ((s.vsrc f.va).lane l).poison } : LaneVal),
      (op (vEnv s f) l ((s.vsrc f.va).lane l).val.toNat).2) = (x l, fl l))
    (hu : Unhindered s ([(⟨lat, .vector (s.cur.veff f.vd.toNat) (lanesOut s f x), unitFlags s f 64 x fl⟩ : Result)].map
      (Result.flight s.now)) []) :
    ∃ t, vUnary f lat op s = .next t ∧
      Issued s t [⟨lat, .vector (s.cur.veff f.vd.toNat) (lanesOut s f x), unitFlags s f 64 x fl⟩] := by
  refine issueOp_issued ho ?_ hu
  have e1 : (fun l => (({ val := BitVec.ofNat 32 (op (vEnv s f) l ((s.vsrc f.va).lane l).val.toNat).1, poison := ((s.vsrc f.va).lane l).poison } : LaneVal),
      (op (vEnv s f) l ((s.vsrc f.va).lane l).val.toNat).2)) = fun l => (x l, fl l) := funext hx
  have e2 := lanesResult_eq (s := s) (f := f) lat (s.cur.veff f.vd.toNat) fun l => (x l, fl l)
  rw [← e1] at e2
  exact (vPlan_named (gsUnary_named hd ha)).trans (congrArg (fun r => ({ results := [r] } : Plan)) e2)

/-- A form over elements of VA, operand B and VC (06 R141). -/
theorem vElems_issued {lat w : Nat} {useC : Bool} {op : VEnv → (Nat → Nat) → Nat → Nat → Nat → Nat → Nat × Flags} (ho : Opens s)
    (h : NamesBinary s f) (hc : useC = true → Named s.cur f.vc.toNat) :
    let a := s.vsrc f.va
    let b := s.opB f w
    let c := s.vsrc f.vc
    let el := fun l => onElems w l (fun i p q r => op (vEnv s f) (fun t => (vEnv s f).draw t l) i p q r)
      (a.lane l).val (b.lane l).val (c.lane l).val
    let x : Nat → LaneVal := fun l =>
      { val := (el l).1, poison := (a.lane l).poison || (b.lane l).poison || (useC && (c.lane l).poison) }
    let rs : List Result := [⟨lat, .vector (s.cur.veff f.vd.toNat) (lanesOut s f x), unitFlags s f 64 x fun l => (el l).2⟩]
    Unhindered s (rs.map (Result.flight s.now)) [] → ∃ t, vElems f lat w useC op s = .next t ∧ Issued s t rs := by
  intro a b c el x rs hu
  refine issueOp_issued ho ?_ hu
  have hg : groupChecks s.cur (gsBinary f ++ if useC then [.vec f.vc.toNat 1] else []) = [] ∧
      absentChecks s.cur (gsBinary f ++ if useC then [.vec f.vc.toNat 1] else []) = [] := by
    refine gsBinary_named h ?_
    cases useC
    · exact groups_nil _
    · exact groups_cons (hc rfl) rfl rfl
  refine (vPlan_named hg).trans (congrArg (fun r => ({ results := [r] } : Plan)) ?_)
  exact lanesResult_eq ..

/-- A copy of source lanes (06 R153). -/
theorem vCopyLanes_issued {lat : Nat} {gs : List GroupUse} {src : State → Nat → LaneVal} (ho : Opens s)
    (hg : groupChecks s.cur gs = [] ∧ absentChecks s.cur gs = [])
    (hu : Unhindered s ([(⟨lat, .vector (s.cur.veff f.vd.toNat) (lanesOut s f (src s)), unitFlags s f 64 (src s) fun _ => 0⟩ : Result)].map
      (Result.flight s.now)) []) :
    ∃ t, vCopyLanes f lat gs src s = .next t ∧
      Issued s t [⟨lat, .vector (s.cur.veff f.vd.toNat) (lanesOut s f (src s)), unitFlags s f 64 (src s) fun _ => 0⟩] := by
  refine issueOp_issued ho ?_ hu
  exact (vPlan_named hg).trans (congrArg (fun r => ({ results := [r] } : Plan)) (lanesResult_eq ..))

theorem orFlags_zero (l : List Flags) (h : ∀ f ∈ l, f = 0) : orFlags l = 0 := by
  unfold orFlags
  induction l with
  | nil => rfl
  | cons a l ih =>
    rw [List.foldl_cons, h a (List.mem_cons_self ..)]
    exact ih fun f hf => h f (List.mem_cons_of_mem _ hf)

/-- A form that sets no flag has none. -/
theorem unitFlags_zero (n : Nat) (x : Nat → LaneVal) : unitFlags s f n x (fun _ => 0) = 0 := by
  refine orFlags_zero _ fun g hg => ?_
  obtain ⟨l, _, rfl⟩ := List.mem_map.mp hg
  exact ite_self _

end Sys2Proof.Machine
end

