-- ==== Sys2Proof/Machine/Imkas.lean ====
section
/-! DEFINITION. The assembler imkas (02 R53 to R60): bundles, slots, read ports, constants, directives and the kernel image (11 R280)
of a source whose lines have been read; no step uses it. -/

namespace Sys2Proof.Machine.Imkas

/-! ### Constant expressions (R58) -/

/-- A constant expression, its precedence already resolved; `tile` is the window base of a gathering member (Table 2.20). -/
inductive Expr where
  | num (v : Int)
  | name (s : String)
  | tile (x y : Expr) (acc : Bool)
  | neg (a : Expr)
  | inv (a : Expr)
  | add (a b : Expr)
  | sub (a b : Expr)
  | mul (a b : Expr)
  | div (a b : Expr)
  | rem (a b : Expr)
  | shl (a b : Expr)
  | shr (a b : Expr)
  | and (a b : Expr)
  | or (a b : Expr)
  | xor (a b : Expr)
  deriving DecidableEq, Repr

/-- Names with their values: labels and `.equ` definitions. -/
abbrev Names := List (String × Word)

/-- A shift by a count below zero has no value (log 76). -/
def shiftCount (b : Word) : Option Nat := if b.msb then none else some (min b.toNat 64)

/-- The window base of member (x, y), relative to the gathering (08 R187). -/
def tileBase (x y : Word) (acc : Bool) : Option Word :=
  if x.toNat < 16 ∧ y.toNat < 16 then
    some (BitVec.ofNat 64 (2 ^ 61 + 2 ^ 40 + y.toNat * 2 ^ 36 + x.toNat * 2 ^ 32 + (if acc then 2 ^ 22 else 0)))
  else none

/-- The value of an expression in 64-bit two's complement with wrap; division truncates toward zero and fails by zero, and the remainder
has the dividend's sign (R58; log 78). -/
def Expr.eval (env : Names) : Expr → Option Word
  | .num v => some (BitVec.ofInt 64 v)
  | .name s => (env.find? fun e => e.1 == s).map (·.2)
  | .tile x y acc => do tileBase (← x.eval env) (← y.eval env) acc
  | .neg a => do pure (-(← a.eval env))
  | .inv a => do pure (~~~(← a.eval env))
  | .add a b => do pure ((← a.eval env) + (← b.eval env))
  | .sub a b => do pure ((← a.eval env) - (← b.eval env))
  | .mul a b => do pure ((← a.eval env) * (← b.eval env))
  | .div a b => do
    let y ← b.eval env
    let x ← a.eval env
    if y = 0 then none else pure (BitVec.ofInt 64 (x.toInt.tdiv y.toInt))
  | .rem a b => do
    let y ← b.eval env
    let x ← a.eval env
    if y = 0 then none else pure (BitVec.ofInt 64 (x.toInt.tmod y.toInt))
  | .shl a b => do pure ((← a.eval env) <<< (← shiftCount (← b.eval env)))
  | .shr a b => do pure ((← a.eval env).sshiftRight (← shiftCount (← b.eval env)))
  | .and a b => do pure ((← a.eval env) &&& (← b.eval env))
  | .or a b => do pure ((← a.eval env) ||| (← b.eval env))
  | .xor a b => do pure ((← a.eval env) ^^^ (← b.eval env))

/-- A value in a signed field of n bits, when the field's extension reproduces it. -/
def signedField (n : Nat) (v : Word) : Option Nat :=
  if -(2 ^ (n - 1) : Int) ≤ v.toInt ∧ v.toInt < 2 ^ (n - 1) then some (v.toNat % 2 ^ n) else none

/-- A value in an unsigned field of n bits. -/
def unsignedField (n : Nat) (v : Word) : Option Nat := if v.toNat < 2 ^ n then some v.toNat else none

/-- A value that a signed or an unsigned field of n bits holds (Table 2.21). -/
def eitherField (n : Nat) (v : Word) : Option Nat := (unsignedField n v).orElse fun _ => signedField n v

/-! ### Operations (R54 to R57) -/

inductive Sel where
  | a | b | c | d | ss
  deriving DecidableEq, Repr

/-- A scalar source: a register, or an immediate. -/
inductive Src where
  | reg (n : BitVec 6)
  | imm (e : Expr)
  deriving DecidableEq, Repr

/-- A constant that stands in a field of its own: an offset, a count less one, a label's displacement from the bundle's macro PC. -/
structure ConstField where
  lo : Nat
  width : Nat
  signed : Bool := false
  less : Word := 0
  fromPc : Bool := false
  value : Expr
  deriving DecidableEq, Repr

/-- An operation line: the slot number that a prefix forces, the form with every register, suffix, guard and mask field it names
and with its selectors and constants zero, its scalar sources from left to right, and its other constants. -/
structure Line where
  force : Option Nat := none
  form : Instr
  srcs : List (Sel × Src) := []
  consts : List ConstField := []
  deriving DecidableEq, Repr

/-- Where a selector stands in a slot (Tables 2.5 to 2.12). -/
def selAt : SlotKind → Sel → Option Nat
  | .s, .a => some 13
  | .s, .b => some 16
  | .l, .a => some 12
  | .l, .b => some 15
  | .v, .ss => some 41
  | .m, .a => some 9
  | .m, .b => some 12
  | .x, .a => some 10
  | .x, .b => some 13
  | .x, .c => some 16
  | .x, .d => some 19
  | .f, .a => some 12
  | .f, .b => some 15
  | .c, .a => some 6
  | .c, .b => some 9
  | _, _ => none

/-- The immediate of a slot: its first bit and its width (R33). -/
def immAt : SlotKind → Option (Nat × Nat)
  | .s => some (24, 16)
  | .v => some (51, 13)
  | .c => some (16, 16)
  | _ => none

/-- A slot while its operands are encoded: its word, the ports allotted so far, its immediate if it has one yet. -/
structure Enc where
  word : Nat
  ports : List (BitVec 6)
  imm : Option Word := none
  deriving DecidableEq, Repr

/-- One scalar source (R55): s0 is selector 6, an immediate selector 7, and a register keeps its port or takes the next of six. -/
def encSrc (env : Names) (kind : SlotKind) (e : Enc) (sel : Sel) (src : Src) : Option Enc := do
  let lo ← selAt kind sel
  match src with
  | .reg r =>
    if r = 0 then pure { e with word := e.word + 6 * 2 ^ lo }
    else
      match e.ports.idxOf? r with
      | some i => pure { e with word := e.word + i * 2 ^ lo }
      | none =>
        if e.ports.length = 6 then none
        else pure { e with word := e.word + e.ports.length * 2 ^ lo, ports := e.ports ++ [r] }
  | .imm x =>
    let v ← x.eval env
    let (at', width) ← immAt kind
    match e.imm with
    | some w => if w = v then pure { e with word := e.word + 7 * 2 ^ lo } else none
    | none =>
      let n ← signedField width v
      pure { e with word := e.word + 7 * 2 ^ lo + n * 2 ^ at', imm := some v }

def encSrcs (env : Names) (kind : SlotKind) : List (Sel × Src) → Enc → Option Enc
  | [], e => some e
  | (sel, src) :: l, e => do encSrcs env kind l (← encSrc env kind e sel src)

def encConst (env : Names) (pc : Nat) (c : ConstField) : Option Nat := do
  let v := (← c.value.eval env) - c.less - (if c.fromPc then BitVec.ofNat 64 pc else 0)
  let n ← if c.signed then signedField c.width v else unsignedField c.width v
  pure (n * 2 ^ c.lo)

/-- The bits of an operation in its slot, and the ports after it. -/
def encLine (env : Names) (pc : Nat) (ports : List (BitVec 6)) (x : Line) : Option (Nat × List (BitVec 6)) := do
  let (kind, w) ← encode x.form
  let e ← encSrcs env kind x.srcs { word := w, ports := ports }
  let cs ← x.consts.mapM (encConst env pc)
  pure (e.word + cs.sum, e.ports)

/-- The slot numbers an operation may take. -/
def Line.slots (x : Line) : List Nat :=
  match encode x.form with
  | none => []
  | some (kind, _) =>
    let l := (slotPlaces.filter fun p => p.kind == kind).map (·.num)
    match x.force with | some n => l.filter (· == n) | none => l

/-- The operations in slots (R54): the forced ones where they must be, the others in line order in the first free slot of theirs. -/
def placeLines : List Line → List (Nat × Line) → Option (List (Nat × Line))
  | [], acc => some acc
  | x :: l, acc => do
    let n ← x.slots.find? fun n => !acc.any fun y => y.1 == n
    placeLines l (acc ++ [(n, x)])

/-! ### Bundles (R53) -/

/-- A bundle: its attributes, `.lock` as a, b and n, and its lines. -/
structure Bundle where
  rgn : Bool := false
  lock : Option (Expr × Expr × Expr) := none
  lines : List Line := []
  deriving DecidableEq, Repr

/-- The slots of a bundle in the order S0 to C, ports allotted on the way. -/
def encSlots (env : Names) (pc : Nat) (at' : List (Nat × Line)) :
    List SlotPlace → Nat → List (BitVec 6) → Option (Nat × List (BitVec 6))
  | [], w, ports => some (w, ports)
  | p :: l, w, ports =>
    match at'.find? fun y => y.1 == p.num with
    | none => encSlots env pc at' l w ports
    | some y => do
      let (n, ports) ← encLine env pc ports y.2
      encSlots env pc at' l (w + n * 2 ^ p.base) ports

def lockBits (env : Names) : Option (Expr × Expr × Expr) → Option Nat
  | none => some 0
  | some (a, b, n) => do
    pure (2 + (← unsignedField 5 (← a.eval env)) * 2 ^ 2 + (← unsignedField 5 (← b.eval env)) * 2 ^ 7
      + (← unsignedField 4 (← n.eval env)) * 2 ^ 12)

/-- The header's ports (R30): each allotted one enabled, the others zero. -/
def portBits (ports : List (BitVec 6)) : Nat :=
  ((List.range ports.length).map fun i => (64 + (ports[i]?.getD 0).toNat) * 2 ^ (16 + 7 * i)).sum

/-- The 384 bits of a bundle whose code word stands at a macro PC. -/
def Bundle.word (env : Names) (pc : Nat) (b : Bundle) : Option Nat := do
  let forced ← placeLines (b.lines.filter fun x => x.force.isSome) []
  let at' ← placeLines (b.lines.filter fun x => x.force.isNone) forced
  let (w, ports) ← encSlots env pc at' slotPlaces 0 []
  pure (w + (if b.rgn then 1 else 0) + (← lockBits env b.lock) + portBits ports)

/-! ### Directives (R59) -/

/-- A level of `.loops`: its kind is 0 for t, 1 for st and 2 for sd. -/
structure LoopSpec where
  kind : Fin 3
  count : Expr
  step : Option Expr := none
  reissue : Bool := false
  deriving DecidableEq, Repr

/-- The fields of `.fmt` by the codes of Table 4.1; `fixed` is the constant of the policy fixed(n). -/
structure FmtSpec where
  a : BitVec 2 := 0
  b : BitVec 2 := 0
  fixed : Option Expr := none
  drain : BitVec 4 := 0
  rnd : BitVec 3 := 0
  deriving DecidableEq, Repr

/-- A line of a kernel between `.kernel` and `.end`. -/
inductive Stmt where
  | label (s : String)
  | bundle (b : Bundle)
  | equ (s : String) (e : Expr)
  | ctxalloc (valloc sems dict : Option Expr)
  | loops (l : List LoopSpec)
  | fmt (e : Expr) (f : FmtSpec)
  | sync (k ws th ss inc : Expr)
  | sem (i v : Expr)
  | data (a : Expr)
  | align (n : Expr)
  | cells (width : Nat) (l : List Expr)
  deriving DecidableEq, Repr

/-- A kernel while it is assembled, and when it is done. The code words and the dictionary are in order; `sections` holds each data
section's address and bytes. -/
structure Out where
  code : List Nat := []
  dict : List Nat := []
  labels : Names := []
  equs : Names := []
  valloc : Nat := 8
  sems : Nat := 0
  capacity : Nat := 8192
  loops : List Nat := []
  fmts : List (Nat × Nat) := []
  syncs : List (Nat × Nat × Nat × Nat) := []
  semVals : List (Nat × Nat) := []
  sections : List (Nat × List Byte) := []
  deriving DecidableEq, Repr

/-- The code words of a pattern (R60): the index of its entry, the next entry while there is room, or an escape and 24 halfwords. -/
def Out.put (o : Out) (capacity w : Nat) : Out :=
  match o.dict.idxOf? w with
  | some i => { o with code := o.code ++ [i] }
  | none =>
    if o.dict.length < capacity then { o with code := o.code ++ [o.dict.length], dict := o.dict ++ [w] }
    else { o with code := o.code ++ 0xFFFF :: (List.range 24).map fun i => w / 2 ^ (16 * i) % 2 ^ 16 }

def loopWord (env : Names) (x : LoopSpec) : Option Nat := do
  let count ← unsignedField 32 (← x.count.eval env)
  let step ← signedField 16 (← (x.step.getD (.num 1)).eval env)
  pure (count + x.kind.val * 2 ^ 32 + (if x.reissue then 2 ^ 34 else 0) + step * 2 ^ 48)

/-- An entry of the format table; an invalid one is refused (04 R97). -/
def fmtWord (env : Names) (f : FmtSpec) : Option Nat := do
  let anc ← match f.fixed with | some e => do signedField 16 (← e.eval env) | none => pure 0
  let w := f.a.toNat + f.b.toNat * 4 + (if f.fixed.isSome then 16 else 0) + f.drain.toNat * 2 ^ 6 + f.rnd.toNat * 2 ^ 10 + anc * 2 ^ 16
  if imageValid (BitVec.ofNat 64 w) then pure w else none

/-- Bytes appended to the open data section. -/
def Out.append (o : Out) (l : List Byte) : Option Out := do
  let (a, b) ← o.sections.getLast?
  pure { o with sections := o.sections.dropLast ++ [(a, b ++ l)] }

def Out.setKeys (o : Out) (env : Names) (valloc sems dict : Option Expr) : Option Out := do
  let v ← (valloc.getD (.num 8)).eval env
  let s ← (sems.getD (.num 0)).eval env
  let d ← (dict.getD (.num 8192)).eval env
  if v.toNat % 8 = 0 ∧ 8 ≤ v.toNat ∧ v.toNat ≤ 64 ∧ s.toNat ≤ 256 ∧ 1 ≤ d.toNat ∧ d.toNat ≤ 8192 then
    pure { o with valloc := v.toNat, sems := s.toNat, capacity := d.toNat }
  else none

/-- One line (R53, R59): labels and the dictionary's capacity are those the pass assumes. -/
def Out.stmt (labels : Names) (capacity : Nat) (o : Out) (x : Stmt) : Option Out :=
  let env := o.equs ++ labels
  let code := o.sections.isEmpty
  match x with
  | .label s =>
    if code && !((o.labels ++ o.equs).any fun e => e.1 == s) then
      some { o with labels := o.labels ++ [(s, BitVec.ofNat 64 o.code.length)] }
    else none
  | .bundle b => if code then (b.word env o.code.length).map (o.put capacity) else none
  | .equ s e =>
    if (o.equs ++ labels).any fun y => y.1 == s then none
    else (e.eval env).map fun v => { o with equs := o.equs ++ [(s, v)] }
  | .ctxalloc v n d => o.setKeys env v n d
  | .loops l =>
    if 6 < l.length then none else (l.mapM (loopWord env)).map fun ws => { o with loops := ws }
  | .fmt e f => do
    let i ← unsignedField 4 (← e.eval env)
    pure { o with fmts := o.fmts ++ [(i, ← fmtWord env f)] }
  | .sync k ws th ss inc => do
    let k ← unsignedField 4 (← k.eval env)
    let ws ← unsignedField 8 (← ws.eval env)
    let th ← unsignedField 16 (← th.eval env)
    let ss ← unsignedField 8 (← ss.eval env)
    let inc ← unsignedField 8 (← inc.eval env)
    if k = 0 then none else pure { o with syncs := o.syncs ++ [(k, ws, ss, ws + th * 2 ^ 8 + ss * 2 ^ 24 + inc * 2 ^ 32)] }
  | .sem i v => do
    let i ← unsignedField 8 (← i.eval env)
    pure { o with semVals := o.semVals ++ [(i, ← unsignedField 16 (← v.eval env))] }
  | .data a => do
    let a ← unsignedField 32 (← a.eval env)
    pure { o with sections := o.sections ++ [(a, [])] }
  | .align e => do
    let n := (← e.eval env).toNat
    let (a, b) ← o.sections.getLast?
    if (List.range 13).any fun i => 2 ^ i == n then o.append (List.replicate ((n - (a + b.length) % n) % n) 0) else none
  | .cells width l => do
    if ¬ [1, 2, 4, 8].contains width then none
    else
      let ns ← l.mapM fun e => do eitherField (8 * width) (← e.eval env)
      o.append (ns.flatMap fun n => toBytes width n)

def pass (labels : Names) (capacity : Nat) : List Stmt → Out → Option Out
  | [], o => some o
  | x :: l, o => do pass labels capacity l (← o.stmt labels capacity x)

/-- A label's value depends on the sizes of the bundles before it, and a bundle's pattern on labels: passes are made until the labels
and the capacity found are those assumed (log 76). -/
def settle (l : List Stmt) (equs : Names) : Nat → Names → Nat → Option Out
  | 0, _, _ => none
  | n + 1, labels, capacity =>
    match pass labels capacity l { equs := equs } with
    | none => none
    | some o => if o.labels = labels ∧ o.capacity = capacity then some o else settle l equs n o.labels o.capacity

/-- The labels when every bundle takes one code word. -/
def firstLabels : List Stmt → Nat → Names
  | [], _ => []
  | .label s :: l, n => (s, BitVec.ofNat 64 n) :: firstLabels l n
  | .bundle _ :: l, n => firstLabels l (n + 1)
  | _ :: l, n => firstLabels l n

/-- One kernel under the names its file has defined before it; a sync register's semaphores must be below SEMCNT (Table 2.21). -/
def assemble (l : List Stmt) (equs : Names) : Option Out := do
  let o ← settle l equs (l.length + 2) (firstLabels l 0) 8192
  if o.syncs.all fun y => y.2.1 < o.sems && y.2.2.1 < o.sems then pure o else none

/-! ### The kernel image (11 R280, Table 11.2) -/

/-- The last value given to an index, or zero. -/
def lastOf (l : List (Nat × Nat)) (i : Nat) : Nat := ((l.filter fun e => e.1 == i).getLast?.map (·.2)).getD 0

def padTo (n : Nat) (l : List Byte) : List Byte := l ++ List.replicate (n - l.length) 0

/-- The data area: each section's header, its bytes, and zeros to a multiple of 8. -/
def Out.dataArea (o : Out) : List Byte :=
  o.sections.flatMap fun y => padTo ((y.2.length + 15) / 8 * 8) (toBytes 4 y.1 ++ toBytes 4 y.2.length ++ y.2)

/-- The image of a kernel. -/
def Out.image (o : Out) : List Byte :=
  let dictAt := up64 (896 + 2 * o.code.length)
  let dataAt := up64 (dictAt + 48 * o.dict.length)
  let head := toBytes 4 0x57444B31 ++ toBytes 2 1 ++ toBytes 2 0 ++ toBytes 4 o.code.length ++ toBytes 2 o.dict.length
    ++ toBytes 2 o.sems ++ toBytes 4 o.valloc ++ toBytes 4 o.dataArea.length
  let fmts := (List.range 16).flatMap fun i => toBytes 8 (lastOf o.fmts i)
  let syncs := (List.range 15).flatMap fun i => toBytes 8 (lastOf (o.syncs.map fun y => (y.1, y.2.2.2)) (i + 1))
  let sems := (List.range 256).flatMap fun i => toBytes 2 (lastOf o.semVals i)
  let fixed := padTo 832 (padTo 320 (padTo 64 head ++ fmts ++ syncs) ++ sems) ++ padTo 64 (o.loops.flatMap (toBytes 8))
  let code := fixed ++ o.code.flatMap (toBytes 2)
  padTo dataAt (padTo dictAt code ++ o.dict.flatMap (toBytes 48)) ++ o.dataArea

end Sys2Proof.Machine.Imkas
end

