-- ==== Sys2Proof/Tests/Slice0.lean ====
section
/-! SUPPORT. Tests of the model: ill-formed terms that well-formedness refuses, encodings that the manual works out, and for every
statement of the certificates states and operands that meet its hypotheses, clause by clause. -/

namespace Sys2Proof.Tests

open Machine

set_option maxRecDepth 100000
set_option linter.unusedVariables false
set_option Elab.async false

/-! ### Well-formedness: an ill-formed term for each check -/

/-- S slot (Table 5.1, R126, R127): an immediate without selector 7, SB of a one-operand form, a predicate destination above p15,
reserved bits of a move, a control register that is not assigned. -/
theorem test_wf_s : ([
    .add { d := 1, sa := 0, sb := 1, g := 0, gn := 0, imm := 1 }, .clz { d := 1, sa := 0, sb := 1, g := 0, gn := 0, imm := 0 },
    .abs { d := 1, sa := 0, sb := 0, g := 0, gn := 0, imm := 3 }, .cmpEq { d := 16, sa := 0, sb := 1, g := 0, gn := 0, imm := 0 },
    .smovp { d := 32, sa := 0, sb := 0, g := 0, gn := 0, imm := 0 }, .sel { d := 1, sa := 7, sb := 1, g := 0, gn := 0, imm := 3 },
    .sel { d := 1, sa := 0, sb := 1, g := 0, gn := 0, imm := 16 }, .pand { d := 1, sa := 0, sb := 0, g := 0, gn := 0, imm := 256 },
    .por { d := 16, sa := 0, sb := 0, g := 0, gn := 0, imm := 0 }, .pmovs { d := 1, sa := 0, sb := 0, g := 0, gn := 0, imm := 16 },
    .movz { d := 1, sa := 4, sb := 0, g := 0, gn := 0, imm := 5 }, .movk { d := 1, sa := 0, sb := 1, g := 0, gn := 0, imm := 5 },
    .csrr { d := 1, sa := 0, sb := 0, g := 0, gn := 0, imm := 0x003 }, .csrr { d := 1, sa := 1, sb := 0, g := 0, gn := 0, imm := 0x010 },
    .csrw { d := 1, sa := 7, sb := 0, g := 0, gn := 0, imm := 0x020 }, .csrs { d := 1, sa := 0, sb := 0, g := 0, gn := 0, imm := 0xFFF },
    .ktime { d := 1, sa := 0, sb := 0, g := 0, gn := 0, imm := 1 }] : List Instr).all (fun i => !i.wf) = true := by decide +kernel

/-- L slot (R230, R164): selector 7, a scope on a plain form, a scope code above 5, SB of a load, T of a store. -/
theorem test_wf_l : ([
    .ld64 { t := 1, sa := 7, sb := 0, sc := 0, g := 0, gn := 0, off := 0 }, .ld64 { t := 1, sa := 0, sb := 1, sc := 0, g := 0, gn := 0, off := 0 },
    .ldI8 { t := 1, sa := 0, sb := 0, sc := 1, g := 0, gn := 0, off := 0 }, .ld64Acq { t := 1, sa := 0, sb := 0, sc := 6, g := 0, gn := 0, off := 0 },
    .aadd { t := 1, sa := 0, sb := 7, sc := 0, g := 0, gn := 0, off := 0 }, .aswpAr { t := 1, sa := 0, sb := 1, sc := 7, g := 0, gn := 0, off := 0 },
    .st64 { t := 1, sa := 0, sb := 1, sc := 0, g := 0, gn := 0, off := 0 }, .st64Rel { t := 0, sa := 0, sb := 1, sc := 6, g := 0, gn := 0, off := 0 },
    .vlds { t := 1, sa := 0, sb := 7, sc := 0, g := 0, gn := 0, off := 0 }] : List Instr).all (fun i => !i.wf) = true := by decide +kernel

/-- V slot (R43, R139, R140, Table 6.2): a rounding mode above 4 or on a form that does not round, MK without ME, VB beside a scalar
operand, an immediate without selector 7, and the fields each form must leave zero. -/
def v0 : VSlot := { vd := 1, va := 2, vb := 3, vc := 0, mkr := 0, me := 0, mz := 0, rm := 0, ss := 0, sd := 0, vs := 0, imm := 0 }

theorem test_wf_v : ([
    .vaddF32 { v0 with rm := 5 }, .vaddI32 { v0 with rm := 1 }, .vaddI32 { v0 with mkr := 1 }, .vaddI32 { v0 with vs := 1 },
    .vaddI32 { v0 with ss := 1 }, .vaddI32 { v0 with imm := 1 }, .vaddI32 { v0 with vc := 1 }, .vfmaF32 { v0 with sd := 1 },
    .vabsI32 v0, .vcmpI32Eq { v0 with vd := 16 }, .vsel v0, .mand { v0 with va := 16 }, .mtos { v0 with vd := 0 }, .stom v0,
    .vraddI32 { v0 with vd := 0, vb := 0, mz := 1 }, .vperm { v0 with sd := 1 }, .vrot v0, .vbcast { v0 with vb := 0, imm := 64 },
    .vext { v0 with vd := 0, vb := 0, me := 1 }, .vins { v0 with va := 0, vb := 0, ss := 7 }, .vmovi v0,
    .vcvtF32F16 { v0 with vb := 0, imm := 2 }, .vbpackLb8 { v0 with vb := 0, imm := 3 }, .vtordwF32 { v0 with vb := 0, rm := 1 },
    .vcvtaF32 v0] : List Instr).all (fun i => !i.wf) = true := by decide +kernel

/-- M slot (R104, Table 4.3). -/
def m0 : MSlot := { sy := 0, sa := 0, sb := 0, os := 0, ot := 0, ar := 0 }

theorem test_wf_m : ([
    .wload { m0 with ar := 1 }, .wloadw { m0 with ot := 1 }, .streamAdd { m0 with sa := 7 }, .streamTAdd { m0 with ot := 1 },
    .drain { m0 with sb := 7 }, .drainRdw { m0 with os := 1 }, .accclr { m0 with os := 1 }, .anchor { m0 with ar := 8 },
    .anchor { m0 with ar := 1008, os := 1 }, .oclaim { m0 with os := 2, ot := 1 }, .orelease { m0 with sa := 1 },
    .fmtsel { m0 with os := 16 }, .fmtsel { m0 with sa := 1 }, .accpin { m0 with sb := 1 }, .accpinClr { m0 with ar := 4 }] :
    List Instr).all (fun i => !i.wf) = true := by decide +kernel

/-- X slot (R219, Table 9.2). -/
def x0 : XSlot := { sy := 0, sa := 0, sb := 0, sc := 0, sd := 0, ch := 0, sco := 0, ord := 0, td := 0 }

theorem test_wf_x : ([
    .copy { x0 with sa := 7 }, .copy { x0 with td := 1 }, .copy { x0 with ord := 1 }, .gather { x0 with sco := 1 }, .layreg { x0 with sd := 1 },
    .laydrop { x0 with sb := 1 }, .wmset { x0 with sy := 1 }, .smalloc { x0 with sc := 1 }, .smld { x0 with sco := 1 },
    .smldAcq { x0 with sco := 6 }, .smst { x0 with td := 1 }, .smatomAdd { x0 with sco := 1 }, .smatomAdd { x0 with sd := 1 },
    .smatomCas { x0 with ord := 1, sco := 7 }, .burnishUpdate { x0 with td := 1 }] : List Instr).all (fun i => !i.wf) = true := by decide +kernel

/-- F slot (R267, Table 10.5): port codes end at 9. -/
theorem test_wf_f : ([
    .send { sy := 0, pt := 10, sa := 0, sb := 0, n := 0 }, .recv { sy := 0, pt := 0, sa := 0, sb := 1, n := 0 },
    .recvaddReg { sy := 0, pt := 0, sa := 1, sb := 0, n := 0 }, .recvaddAcc { sy := 0, pt := 0, sa := 7, sb := 0, n := 0 },
    .relay { sy := 0, pt := 15, sa := 0, sb := 0, n := 0 }] : List Instr).all (fun i => !i.wf) = true := by decide +kernel

/-- C slot (Tables 11.7, 10.1, 13.2; R42, R210). -/
def c0 : CSlot := { sa := 0, sb := 0, p := 0, imm := 0 }

theorem test_wf_c : ([
    .ret { c0 with imm := 1 }, .brpT { c0 with sa := 1 }, .bri { c0 with imm := 1 }, .calli { c0 with p := 1 }, .loop c0,
    .loop { c0 with p := 7 }, .lend { c0 with p := 1, sa := 1 }, .semw { c0 with sb := 7 }, .sems { c0 with p := 1 },
    .phregSig { c0 with imm := 512 }, .pharr { c0 with p := 8 }, .phwait { c0 with imm := 1 }, .fence { c0 with p := 6 },
    .yield { c0 with p := 1 }, .halt { c0 with sa := 1 }, .align { c0 with imm := 1 }, .ftrbeg { c0 with imm := 1 },
    .trap { c0 with p := 1 }, .eret { c0 with imm := 1 }, .park { c0 with sb := 1 }, .unparkReturn { c0 with sa := 7 }] :
    List Instr).all (fun i => !i.wf) = true := by decide +kernel

/-! ### Decoding: words written out from the encodings the manual gives -/

/-- A word by its fields, each with its first bit and its value. -/
def word (fields : List (Nat × Nat)) : Nat := (fields.map fun f => f.2 * 2 ^ f.1).sum

/-- Table 2.22: ADD s4 = s[P0] + 12, field by field of Table 2.9: opcode, D, SA, SB, G, GN, IMM16. -/
theorem test_decode_s : decodeSlot .s (word [(0, 0x01), (7, 4), (13, 0), (16, 7), (19, 0), (23, 0), (24, 12)]) =
    .ok (.add { d := 4, sa := 0, sb := 7, g := 0, gn := 0, imm := 12 }) := by decide +kernel

/-- An S word whose two operands, guard and destination all differ. -/
theorem test_decode_s_fields : decodeSlot .s (word [(0, 0x02), (7, 7), (13, 3), (16, 1), (19, 2), (23, 1), (24, 0)]) =
    .ok (.sub { d := 7, sa := 3, sb := 1, g := 2, gn := 1, imm := 0 }) := by decide +kernel

/-- L slot, Table 2.11: opcode, T, SA, SB, SC, G, GN, OFF14. -/
theorem test_decode_l : decodeSlot .l (word [(0, 0x07), (6, 6), (12, 0), (26, 64)]) =
    .ok (.ld64 { t := 6, sa := 0, sb := 0, sc := 0, g := 0, gn := 0, off := 64 }) := by decide +kernel

/-- V slot, Table 2.12. -/
theorem test_decode_v : decodeSlot .v (word [(0, 0x13), (8, 40), (14, 41), (26, 42), (32, 9), (36, 1), (37, 1), (38, 4), (50, 1)]) =
    .ok (.vfmaF16 { vd := 40, va := 41, vb := 0, vc := 42, mkr := 9, me := 1, mz := 1, rm := 4, ss := 0, sd := 0, vs := 1, imm := 0 }) := by
  decide +kernel

/-- 04's worked STREAM word. -/
theorem test_decode_m : decodeSlot .m 0x0000208004 = .ok (.streamOvw { sy := 0, sa := 0, sb := 0, os := 1, ot := 1, ar := 0 }) := by
  decide +kernel

/-- 15's COPY word. -/
theorem test_decode_x : decodeSlot .x 0x0000822141 =
    .ok (.copy { sy := 5, sa := 0, sb := 1, sc := 2, sd := 0, ch := 2, sco := 0, ord := 0, td := 0 }) := by decide +kernel

/-- 14's RECVADD word. -/
theorem test_decode_f : decodeSlot .f 0xFF1204 = .ok (.recvaddAcc { sy := 0, pt := 2, sa := 1, sb := 6, n := 63 }) := by decide +kernel

/-- C slot: a branch backwards by 7 on p1. -/
theorem test_decode_c : decodeSlot .c 0xFFF91002 = .ok (.brpT { sa := 0, sb := 0, p := 1, imm := 0xFFF9 }) := by decide +kernel

/-- A word of no form is refused by name, and so is a reserved field (R35, R49). -/
theorem test_decode_refused : decodeSlot .s 0x000000007F = .error .unassigned ∧ decodeSlot .c 0x00000001000019 = .error .illegalField := by
  decide +kernel

/-! ### States for the statements' hypotheses -/

/-- `Opens` as a test that decides it. -/
def opens (s : State) : Bool :=
  s.issue.mode == .whole && s.issue.fails.isEmpty && s.issue.lands.isEmpty && s.issue.banks.isEmpty && s.issue.fabBanks.isEmpty
    && s.issue.semLeft == none && s.issue.target == none && !s.issue.nonRep && s.issue.sent == none && s.fenceFails.isEmpty

theorem opens_iff (s : State) : opens s = true ↔ Opens s := by
  simp only [opens, Bool.and_eq_true, List.isEmpty_iff, beq_iff_eq, Bool.not_eq_true']
  constructor
  · rintro ⟨⟨⟨⟨⟨⟨⟨⟨⟨a, b⟩, c⟩, d⟩, e⟩, f⟩, g⟩, h⟩, i⟩, j⟩
    exact ⟨a, b, c, d, e, f, g, h, i, j⟩
  · rintro ⟨a, b, c, d, e, f, g, h, i, j⟩
    exact ⟨⟨⟨⟨⟨⟨⟨⟨⟨a, b⟩, c⟩, d⟩, e⟩, f⟩, g⟩, h⟩, i⟩, j⟩

/-- `Unhindered` as a test that decides it. -/
def unhindered (s : State) (ls : List Landing) (banks : List Nat) : Bool :=
  ((s.cur.heldAt s.now).all fun r => s.issue.hdr.ports.all (fun p => p.toNat != 64 + r) && s.issue.td != r && ls.all fun l => l.dest.key != some (0, r))
    && (portFails s.cur.inflight (ls.map fun l => (s.issue.slot, l))).isEmpty
    && banks.all fun b => !s.curTile.bankRes.contains (b, s.now + 1) && (!s.curTile.granted.contains (b, s.now + 1) ||
      (s.issue.hdr.blk && (b == s.issue.hdr.blka.toNat || b == s.issue.hdr.blkb.toNat)))

theorem unhindered_iff (s : State) (ls : List Landing) (banks : List Nat) : unhindered s ls banks = true ↔ Unhindered s ls banks := by
  constructor
  · intro h
    simp only [unhindered, Bool.and_eq_true, List.all_eq_true, List.isEmpty_iff, bne_iff_ne, Bool.or_eq_true, Bool.not_eq_true',
      List.contains_eq_mem, beq_iff_eq, decide_eq_false_iff_not] at h
    refine ⟨fun r hr => ⟨(h.1.1 r hr).1.1, (h.1.1 r hr).1.2, (h.1.1 r hr).2⟩, h.1.2, fun b hb => ⟨(h.2 b hb).1, fun hm => ?_⟩⟩
    rcases (h.2 b hb).2 with hn | hn
    · exact absurd hm hn
    · exact hn
  · rintro ⟨a, b, c⟩
    simp only [unhindered, Bool.and_eq_true, List.all_eq_true, List.isEmpty_iff, bne_iff_ne, Bool.or_eq_true, Bool.not_eq_true',
      List.contains_eq_mem, beq_iff_eq, decide_eq_false_iff_not]
    refine ⟨⟨fun r hr => ⟨⟨(a r hr).1, (a r hr).2.1⟩, (a r hr).2.2⟩, b⟩, fun n hn => ⟨(c n hn).1, ?_⟩⟩
    by_cases hm : (n, s.now + 1) ∈ s.curTile.granted
    · exact .inr ((c n hn).2 hm)
    · exact .inl hm

/-- A bundle of one operation that may issue with the results `rs`: the two hypotheses that most statements share. -/
def goes (s : State) (rs : List Result) (banks : List Nat := []) : Bool :=
  opens s && unhindered s (rs.map (Result.flight s.now)) banks

theorem goes_iff (s : State) (rs : List Result) (banks : List Nat) :
    goes s rs banks = true ↔ Opens s ∧ Unhindered s (rs.map (Result.flight s.now)) banks := by
  rw [goes, Bool.and_eq_true, opens_iff, unhindered_iff]

/-- `Named` as a test that decides it. -/
def named (k : Ctx) (n : Nat) : Bool := n < 64 && k.veff n < k.valloc.toNat && !k.absent.contains (k.veff n)

theorem named_iff (k : Ctx) (n : Nat) : named k n = true ↔ Named k n := by
  simp only [named, Bool.and_eq_true, decide_eq_true_eq, Bool.not_eq_true', List.contains_eq_mem, decide_eq_false_iff_not]
  exact ⟨fun h => ⟨h.1, h.2⟩, fun h => ⟨h.below, h.present⟩⟩

/-- `ScratchOpen` as a test that decides it. -/
def scratchOpen (s : State) (x : Word) (w : Nat) : Bool :=
  (acquireCheck s).isEmpty && x.toNat % w == 0 && x.toNat + w ≤ 0x400000 && !s.curTile.heldBytes s.issue.tile x.toNat w

theorem scratchOpen_iff (s : State) (x : Word) (w : Nat) : scratchOpen s x w = true ↔ ScratchOpen s x w := by
  simp only [scratchOpen, Bool.and_eq_true, List.isEmpty_iff, beq_iff_eq, decide_eq_true_eq, Bool.not_eq_true']
  exact ⟨fun h => ⟨h.1.1.1, h.1.1.2, h.1.2, h.2⟩, fun h => ⟨⟨⟨h.order, h.aligned⟩, h.inside⟩, h.written⟩⟩

/-- Ports P0, P1, … naming scalar registers (02 R33). -/
def hdr (regs : List Nat) : Header := { (Header.ofWord 0) with ports := regs.map fun r => BitVec.ofNat 7 (64 + r) }

/-- A context at the user level whose registers s1, s2, … hold the values listed, with 64 vector registers and 256 semaphores. -/
def ctx (vs : List Word) (bad : List Nat := []) : Ctx :=
  { sregs := (List.range vs.length).map fun i => (i + 1, { val := vs.getD i 0, poison := bad.contains (i + 1) })
    valloc := 64, semcnt := 256 }

/-- A bundle of one operation in slot 1 of context 0 of tile 0, at the place the context stands; P0 names s1, P1 s2, and so on. -/
def state (k : Ctx) (x : Tile := {}) (s : State := .reset) : State :=
  { s with tiles := [(0, { x with ctxs := [(0, k)] })]
           issue := { (openIssue 0 0 k 0 (k.pc.toNat + 1) 1) with slot := 1, hdr := hdr [1, 2, 3, 4, 5, 6] } }

/-! ### S slot: hypotheses -/

def s3 : SSlot := { d := 3, sa := 0, sb := 1, g := 0, gn := 0, imm := 0 }

theorem test_hyp_ScalarBinaryResults :
    let s := state (ctx [5, 3])
    s.guard s3.g s3.gn = true ∧ ∀ lat ∈ [1, 3, 4, 24], goes s [⟨lat, .scalar 3 { val := 8 }, 0⟩] = true := by decide +kernel

theorem test_hyp_ScalarUnaryAndPairResults :
    let s := state (ctx [5, 3])
    s.guard s3.g s3.gn = true ∧ goes s [⟨1, .scalar 3 { val := 5 }, 0⟩] = true ∧
      (∀ d ∈ [62, 63], goes s [⟨4, .scalar d { val := 15 }, 0⟩, ⟨4, .scalar (d + 1) { val := 0 }, 0⟩] = true) := by decide +kernel

/-- A sum that fits, and one that the signed form clamps. -/
theorem test_hyp_SaturatingForms : ∀ a ∈ [5, 0x7FFFFFFFFFFFFFFF],
    let s := state (ctx [BitVec.ofNat 64 a, 3])
    s.guard s3.g s3.gn = true ∧ goes s [⟨1, .scalar 3 { val := 8 }, if a = 5 then 0 else flSAT⟩] = true := by decide +kernel

/-- Neither operand poisoned, the first, and only the second. -/
theorem test_hyp_ComparesLandOrTrap : ∀ bad ∈ [[], [1], [2]],
    let s := state (ctx [5, 3] bad)
    s.guard s3.g s3.gn = true ∧ goes s [⟨1, .pred 3 true, 0⟩] = true ∧
      ((s.sOp s3 s3.sa).poison, (s.sOp s3 s3.sb).poison) = (decide (bad = [1]), decide (bad = [2])) := by decide +kernel

theorem test_hyp_MovesAndPredicates :
    let s := state (ctx [5, 3])
    s.guard s3.g s3.gn = true ∧ goes s [⟨1, .scalar 3 { val := 8 }, 0⟩] = true ∧ goes s [⟨1, .pred 3 true, 0⟩] = true := by decide +kernel

/-- Each clause at both levels: SEED takes any value at the user level; a bit outside FMTLOOP's field, and the field's seventh code; STATUS,
written only at the supervisor level, in its one field; TRAPSLOT up to 8, read only there; QUANTUM not 0; VALLOC, written by nobody. -/
theorem test_hyp_ControlRegisterForms :
    let s := fun (lvl : BitVec 1) (a : Nat) (bad : List Nat) => state { ctx [BitVec.ofNat 64 a, 3] bad with lvl := lvl }
    let f := { s3 with sb := 0 }
    let within := fun (may : Nat) (old new : Word) => (List.range 64).all fun i => old.getLsbD i == new.getLsbD i || may.testBit i
    (∀ lvl ∈ [0#1, 1#1], ∀ bad ∈ [[], [1]], let z := s lvl 5 bad
      z.issue.lvl = lvl ∧ z.guard f.g f.gn = true ∧ (z.sOp f f.sa).val = 5 ∧ (z.sOp f f.sa).poison = decide (bad = [1]) ∧
      goes z [⟨1, .scalar 3 {}, 0⟩] = true ∧
      ∀ n ∈ [0x000, 0x001, 0x011, 0x020, 0x040, 0x062], goes z [⟨1, .scalar 3 {}, 0⟩, ⟨1, .csr n 5, 0⟩] = true) ∧
    within (2 ^ 64 - 1) 0 (BitVec.allOnes 64) = true ∧ within (2 ^ 3 - 1) 0 8 = false ∧ within (2 ^ 3 - 1) 0 7 = true ∧
    within (2 ^ 8) 3 0x103 = true ∧ within (2 ^ 8) 3 2 = false ∧ within (2 ^ 4 - 1) 0 8 = true ∧ within (2 ^ 16 - 1) 0x1000 0 = true ∧
    (0x062 : Nat) ≥ 0x060 ∧ ¬(0x065 < 0x062) ∧ (0x051 : Nat) < 0x060 ∧ 0x065 < 0x070 := by decide +kernel

/-! ### L slot: hypotheses -/

def l3 : LSlot := { t := 3, sa := 0, sb := 1, sc := 0, g := 0, gn := 0, off := 0 }

/-- The last 8 bytes of the scratchpad, with one byte poisoned and with none: what an acquire may not and may read. -/
theorem test_hyp_LoadResults :
    let s := state (ctx [0x3FFFF8]) { scratch := (Mem.mk [] [(0x3FFFF9, ())]) }
    let z := state (ctx [0x3FFFF8])
    s.guard l3.g l3.gn = true ∧ (s.plainOp l3.sa).poison = false ∧
    (∀ u ∈ [s, z], ∀ w ∈ [1, 2, 4, 8], scratchOpen u 0x3FFFF8 w = true ∧ goes u [⟨4, .scalar 3 { val := 0 }, 0⟩] (banksOf 0x3FFFF8 w) = true) ∧
    s.curTile.scratch.poisonAt 0x3FFFF9 = true ∧ (∀ j, j < 8 → z.curTile.scratch.poisonAt (0x3FFFF8 + j) = false) := by decide +kernel

/-- A plain store, and a release with nothing to wait for, of the first and of the last bytes. -/
theorem test_hyp_StoreEffects : ∀ a ∈ [0, 0x3FFFF8],
    let s := state (ctx [BitVec.ofNat 64 a, 0x1122334455667788])
    s.guard l3.g l3.gn = true ∧ (s.plainOp l3.sa).poison = false ∧ (s.plainOp l3.sb).poison = false ∧
    s.released s.issue.tile s.issue.ctx = true ∧
    ∀ w ∈ [1, 2, 4, 8], scratchOpen s (BitVec.ofNat 64 a) w = true ∧ goes s [] (banksOf a w) = true := by decide +kernel

/-- A poisoned address; a poisoned datum of a release; a misaligned access; one byte past the end; an acquire of a poisoned byte. -/
theorem test_hyp_ScratchTraps :
    let s := fun (a : Nat) (bad : List Nat) => state (ctx [BitVec.ofNat 64 a, 7] bad) { scratch := (Mem.mk [] [(0x3FFFF9, ())]) }
    (∀ p ∈ [(0, [1]), (0, [2]), (4, []), (0x400000, []), (0x3FFFF8, [])], (s p.1 p.2).guard l3.g l3.gn = true ∧ acquireCheck (s p.1 p.2) = [] ∧
      goes (s p.1 p.2) [] (banksOf p.1 8) = true ∧ goes (s p.1 p.2) [⟨4, .scalar 3 {}, 0⟩] (banksOf p.1 8) = true) ∧
    ((s 0 [1]).plainOp 0).poison = true ∧ ((s 0 [2]).plainOp 1).poison = true ∧
    4 % 8 ≠ 0 ∧ 0x400000 % 8 = 0 ∧ 0x400000 < 0x400000 + 8 ∧
    scratchOpen (s 0x3FFFF8 []) 0x3FFFF8 8 = true ∧ (s 0x3FFFF8 []).curTile.scratch.poisonAt (0x3FFFF8 + 1) = true := by
  simp only [acquireCheck]
  decide +kernel

/-- The last 256 bytes, and four lines of different banks 128 and 192 bytes apart: loaded and stored. -/
theorem test_hyp_VectorLoadsAndStores :
    (∀ p ∈ [(0x3FFF00, 64), (0x3FFE40, 128), (0, 192)],
      let s := state (ctx [BitVec.ofNat 64 p.1, BitVec.ofNat 64 p.2])
      let c := fun q => (BitVec.ofNat 64 p.1 + BitVec.ofNat 64 q * BitVec.ofNat 64 p.2).toNat
      s.guard 0 0 = true ∧ named s.cur 3 = true ∧ (s.plainOp 0).poison = false ∧ (s.plainOp 1).poison = false ∧
      p.1 % 64 = 0 ∧ p.2 % 64 = 0 ∧ (acquireCheck s).isEmpty = true ∧
      (∀ q, q < 4 → c q + 64 ≤ 0x400000 ∧ s.curTile.heldBytes s.issue.tile (c q) 64 = false) ∧
      (∀ a, a < 4 → ∀ b, b < 4 → a ≠ b → c a / 64 % 32 ≠ c b / 64 % 32) ∧
      ∀ rs ∈ ([[⟨5, .vector 3 [], 0⟩], []] : List (List Result)), goes s rs ((List.range 4).map fun q => c q / 64 % 32) = true) ∧
    0x3FFF00 + 256 = 0x400000 := by decide +kernel

/-- Where the three address clauses meet: FFFFCh is misaligned, FFFF8h the last entry, 100000h names no window. The access itself: entry
131,071, unpoisoned, with a release that has nothing to wait for. -/
theorem test_hyp_AccumulatorLocal :
    (0xFFFFC % 8 ≠ 0 ∧ 0xFFFF8 % 8 = 0 ∧ 0xFFFF8 < 0x100000) ∧
    (match GAddr.ofWord 0x100000#64 with | some (.window _ _ _ _ 1 _) => false | _ => true) = true ∧
    let s := state (ctx [0xFFFF8, 5])
    s.guard l3.g l3.gn = true ∧ (accTarget s 0xFFFF8).toOption = some (s.issue.tile, 131071) ∧ (acquireCheck s).isEmpty = true ∧
    (s.plainOp 0).poison = false ∧ (s.plainOp 1).poison = false ∧ s.released s.issue.tile s.issue.ctx = true ∧
    (FMap.getD s.curTile.acc 131071 {}).poison = false ∧ s.curTile.regionBusy (131071 / 2048) = false ∧
    ∀ rs ∈ ([0, 6, 8].map fun lat => if lat = 0 then [] else [(⟨lat, .scalar 3 {}, 0⟩ : Result)]), goes s rs = true := by decide +kernel

/-- A sum of −2^63, which stays, and the nearest ones on either side that clamp. -/
theorem test_hyp_AccumulatorLocal_sums :
    ∀ p ∈ ([(-2 ^ 63 + 5, -5, -2 ^ 63), (-2 ^ 63, -1, -2 ^ 63 - 1), (2 ^ 63 - 1, 1, 2 ^ 63)] : List (Int × Int × Int)),
      let s := state (ctx [0xFFFF8, BitVec.ofInt 64 p.2.1]) { acc := [(131071, { val := BitVec.ofInt 64 p.1 })] }
      s.guard l3.g l3.gn = true ∧ goes s [⟨8, .scalar 3 {}, if p.2.2 = -2 ^ 63 then 0 else flSAT⟩] = true ∧
        (FMap.getD s.curTile.acc 131071 {}).val.toInt + (s.plainOp 1).val.toInt = p.2.2 := by decide +kernel

/-- A window of space 2 that names member 1 of the context's instance, on tile 50 of the next die. -/
def window : Word := 0x2000010100400000#64

theorem test_hyp_AccumulatorRemote :
    let s := state { ctx [window, 5] with inst := 1 } {} { State.reset with places := [(1, [(0, 0), (1, 50)])] }
    s.guard l3.g l3.gn = true ∧ 50 ≠ s.issue.tile ∧ (accTarget s window).toOption = some (50, 0) ∧ (acquireCheck s).isEmpty = true ∧
    (s.plainOp 0).poison = false ∧ (s.plainOp 1).poison = false ∧ s.released s.issue.tile s.issue.ctx = true ∧ opens s = true ∧
    ∀ ls ∈ ([[], [{ id := s.nextId, due := 90, dest := .scalar 3 {}, waits := true, nominal := some 90 }]] : List (List Landing)),
      unhindered s ls [] = true := by decide +kernel

/-- Every premise of a far acquire that does not depend on its moment, as a test. -/
def farReady (s : State) (l : Landing) : Bool :=
  let free := [s.guard l3.g l3.gn, s.issue.alone, s.issue.zeroHdr, s.cur.lockLeft.isNone, !s.cur.inFtr, opens s, unhindered s [] [], unhindered s [l] []]
  let operands := [decide (50 ≠ s.issue.tile), (accTarget s window).toOption == some (50, 0), (acquireCheck s).isEmpty, !(s.plainOp 0).poison,
    !(s.plainOp 1).poison, s.released s.issue.tile s.issue.ctx, s.cur.farAcq.all fun r => r.pc == s.issue.pc]
  free.all id && operands.all id

/-- The three moments of a far acquire: before it departs, while it is under way, and when it is back, unpoisoned and poisoned. -/
theorem test_hyp_FarAcquires :
    let s := fun q => state { ctx [window, 5] with inst := 1, farAcq := q } {} { State.reset with places := [(1, [(0, 0), (1, 50)])] }
    let back := fun bad => some ({ id := 7, back := some (9, bad, 0) } : FarAcquire)
    [none, some { id := 7 }, back false, back true].all fun q =>
      farReady (s q) { Result.flight (s q).now ⟨1, .scalar 3 { val := 9 }, 0⟩ with free := true } && (s q).cur.farAcq == q
        && !((s q).cur.heldAt (s q).now).contains 3 := by
  decide +kernel

/-- T held for a late value. -/
theorem test_hyp_FarAcquires_held :
    let s := state { ctx [window, 5] with inst := 1, inflight := [{ id := 7, due := 0, dest := .scalar 9 {}, waits := true, nominal := some 0 }] } {}
      { State.reset with places := [(1, [(0, 0), (1, 50)])] }
    s.cur.farAcq = none ∧ 9 ∈ s.cur.heldAt s.now ∧ opens s = true ∧ unhindered s [] [] = true ∧ s.issue.alone = true ∧ s.issue.zeroHdr = true := by
  decide +kernel

/-- The guard of p0 reversed, with an even destination of a scalar form and a register of a local form that may be named. -/
theorem test_hyp_FalseGuards :
    let s := state (ctx [5, 3])
    s.guard 0 1 = false ∧ (62#6).toNat % 2 = 0 ∧ named s.cur 63 = true ∧ goes s [] = true := by decide +kernel

/-! ### V slot: hypotheses -/

/-- A form over v1 (destination), v2 and v3, without a mask. -/
def v3 : VSlot := { v0 with vc := 4, sd := 3 }

/-- The registers of v3 may be named, in every latency of Table 6.6, with VB a register and with a scalar in its place. -/
theorem test_hyp_VectorIntegers :
    let s := state (ctx [5, 3])
    named s.cur 1 = true ∧ named s.cur 2 = true ∧ named s.cur 3 = true ∧ ∀ lat ∈ [2, 3, 5], goes s [⟨lat, .vector 1 [], 0⟩] = true := by
  decide +kernel

/-- The same of the saturating forms, where a lane of the sum leaves the format and where none does. -/
theorem test_hyp_VectorIntegers_saturating : ∀ x ∈ [1, 0x7FFFFFFF],
    let s := state { ctx [5, 3] with vregs := [(2, List.replicate 64 { val := BitVec.ofNat 32 x }), (3, List.replicate 64 { val := 1 })] }
    named s.cur 1 = true ∧ named s.cur 2 = true ∧ named s.cur 3 = true ∧ goes s [⟨3, .vector 1 [], 0⟩] = true ∧
      (decide ((2 ^ 31 - 1 : Int) < ((s.vsrc 2).lane 0).val.toInt + ((s.vsrc 3).lane 0).val.toInt) = decide (x = 0x7FFFFFFF)) := by decide +kernel

/-- The same of the floating-point forms with VC, under a mask with a bit set, one clear and one poisoned. -/
theorem test_hyp_VectorFloats :
    let s := state { ctx [5, 3] with masks := [(1, { bits := 1, poison := 4 })] }
    named s.cur 1 = true ∧ named s.cur 2 = true ∧ named s.cur 3 = true ∧ named s.cur 4 = true ∧
      ((s.cur.mreg 1).bits.getLsbD 0, (s.cur.mreg 1).bits.getLsbD 1, (s.cur.mreg 1).poison.getLsbD 2) = (true, false, true) ∧
      ∀ lat ∈ [2, 3, 5], goes s [⟨lat, .vector 1 [], 0⟩] = true := by decide +kernel

/-- A quiet and a signalling NaN, an infinity, a zero and a number of each format. -/
theorem test_hyp_VectorFloats_values :
    (∀ e ∈ [(0x7FC00000, Machine.Num.nan false), (0x7FA00000, .nan true), (0xFF800000, .inf true), (0x80000000, .fin true 0 (-149)),
      (0x3F800000, .fin false 0x800000 (-23))], fp32.decode e.1 = e.2) ∧
    (∀ e ∈ [(0x7E00, Machine.Num.nan false), (0x7D00, .nan true), (0x7C00, .inf false), (0, .fin false 0 (-24))], fp16.decode e.1 = e.2) ∧
    (∀ e ∈ [(0x7FC0, Machine.Num.nan false), (0x7FA0, .nan true), (0x7F80, .inf false), (0x8000, .fin true 0 (-133))], bf16.decode e.1 = e.2) ∧
    (0x80000000 < 2 * 2 ^ 31 ∧ 0 < 2 * 2 ^ 31) := by decide +kernel

/-- 06 R146: the minimum of −0 and +0 is −0, that of a signalling NaN and 1 is 1 with NV. -/
theorem test_min : fp32.minMax false 0 0x80000000 = (0x80000000, 0) ∧ fp32.minMax false 0x7FA00000 0x3F800000 = (0x3F800000, flNV) := by
  decide +kernel

/-- 06 R147: 1/3 by RNE is 3EAAAAABh, inexact; √4 is 2, 2^3 is 8 and log2 8 is 3, exact; 1/−0 is −∞ with DZ. -/
theorem test_transcendental :
    fpRecip .rne 0 0x40400000 = (0x3EAAAAAB, flNX) ∧ fpSqrt .rne 0 0x40800000 = (0x40000000, 0) ∧ fpExp2 .rne 0 0x40400000 = (0x41000000, 0) ∧
    fpLog2 .rne 0 0x41000000 = (0x40400000, 0) ∧ fpRecip .rne 0 0x80000000 = (0xFF800000, flDZ) := by decide +kernel

theorem test_hyp_VectorUnary :
    let s := state (ctx [5, 3])
    named s.cur 1 = true ∧ named s.cur 2 = true ∧ ∀ lat ∈ [2, 8, 12], goes s [⟨lat, .vector 1 [], 0⟩] = true := by decide +kernel

/-- An operand of each row of Table 6.5, 1 and the number below it. -/
theorem test_hyp_VectorUnary_values :
    (∀ e ∈ [(0x7FC00000, Machine.Num.nan false), (0x7FA00000, .nan true), (0x7F800000, .inf false), (0xFF800000, .inf true),
      (0, .fin false 0 (-149)), (0x80000000, .fin true 0 (-149)), (0xBF800000, .fin true 0x800000 (-23)), (0x3F800000, .fin false 0x800000 (-23)),
      (0x3F7FFFFF, .fin false 0xFFFFFF (-24))], fp32.decode e.1 = e.2 ∧ e.1 < 2 ^ 32) ∧
    (1 : ℝ) ≤ ((0x800000 : Nat) : ℝ) * 2 ^ (-23 : Int) ∧ ((0xFFFFFF : Nat) : ℝ) * 2 ^ (-24 : Int) < 1 ∧
    (1 : ℝ) / (((0x800000 : Nat) : ℝ) * 2 ^ (-23 : Int)) = ((1 : Nat) : ℝ) * 2 ^ (0 : Int) := by
  refine ⟨by decide +kernel, ?_, ?_, ?_⟩ <;> norm_num

/-- A quiet NaN, a signalling NaN, two zeros of opposite signs and two numbers: each premise of the relations. -/
theorem test_hyp_VectorCompares :
    (0x7FC00000#32 &&& 0x7F800000#32 = 0x7F800000#32 ∧ 0x7FC00000#32 &&& 0x7FFFFF#32 ≠ 0#32 ∧ (0x7FC00000#32).getLsbD 22 = true) ∧
    (0x7FA00000#32 &&& 0x7F800000#32 = 0x7F800000#32 ∧ 0x7FA00000#32 &&& 0x7FFFFF#32 ≠ 0#32 ∧ (0x7FA00000#32).getLsbD 22 = false) ∧
    (0x80000000#32 &&& 0x7FFFFFFF#32 = 0#32 ∧ 0#32 &&& 0x7FFFFFFF#32 = 0#32) ∧
    (0x7F800000#32 &&& 0x7FFFFF#32 = 0#32 ∧ 0x3F800000#32 &&& 0x7F800000#32 ≠ 0x7F800000#32) ∧
    let s := state (ctx [5, 3])
    named s.cur 2 = true ∧ named s.cur 3 = true ∧ goes s [⟨2, .mask 1 0 {}, 0⟩] = true := by decide +kernel

theorem test_hyp_MasksAndSelection :
    let s := state { ctx [5, 3] [2] with masks := [(1, { bits := 1, poison := 4 })] }
    named s.cur 1 = true ∧ named s.cur 2 = true ∧ named s.cur 3 = true ∧ goes s [⟨2, .mask 1 0 {}, 0⟩] = true ∧
      goes s [⟨2, .scalar 3 {}, 0⟩] = true ∧ goes s [⟨2, .vector 1 [], 0⟩] = true := by decide +kernel

/-- All 64 lanes without a mask, and none under an empty one. -/
theorem test_hyp_Reductions :
    let s := state (ctx [5, 3])
    let e : VSlot := { v3 with me := 1 }
    named s.cur 2 = true ∧ goes s [⟨6, .scalar 3 {}, 0⟩] = true ∧
      ((List.range 64).Nodup ∧ ∀ l, l ∈ List.range 64 ↔ l < 64 ∧ TakesPart s v3 l) ∧
      (([] : List Nat).Nodup ∧ ∀ l, l ∈ ([] : List Nat) ↔ l < 64 ∧ TakesPart s e l) ∧ (0 : Nat) ∈ List.range 64 := by
  refine ⟨by decide +kernel, by decide +kernel, ⟨List.nodup_range, fun l => ?_⟩, ⟨List.nodup_nil, fun l => ?_⟩, by decide⟩
  · simp [TakesPart, v3, v0]
  · have h : (state (ctx [5, 3])).cur.mreg ((state (ctx [5, 3])).cur.meff v3.mkr.toNat) = {} := by decide +kernel
    simp only [List.not_mem_nil, TakesPart, false_iff, not_and]
    rintro - (h0 | h0 | h0)
    · exact absurd h0 (by decide)
    · exact absurd (h ▸ h0) (by simp)
    · exact absurd (h ▸ h0) (by simp)

/-- The tree of a sum over 64 lanes of zeros. -/
def nodes (s : State) : Nat → Nat → Option RNode
  | 0, _ => some { val := 0, flags := 0, poison := false }
  | t + 1, i =>
    match nodes s t (2 * i), nodes s t (2 * i + 1) with
    | some a, some b =>
      let r := fp32.add (RMode.ofCode v3.rm.toNat) (drawOf s (64 * (t + 1) + i) 0) a.val b.val
      let p := a.poison || b.poison
      some { val := r.1, flags := a.flags ||| b.flags ||| (if p then 0 else r.2), poison := p }
    | some a, none => some a
    | none, b => b

theorem test_hyp_Reductions_float :
    let s := state (ctx [5, 3])
    named s.cur 2 = true ∧ goes s [⟨6, .scalar 3 {}, 0⟩] = true ∧
      (∀ l, l < 64 → TakesPart s v3 l ∧ nodes s 0 l = some { val := ((s.vsrc v3.va).lane l).val.toNat, flags := 0
                                                             poison := ((s.vsrc v3.va).lane l).poison || (v3.me == 1#1 && false) }) ∧
      ∀ t i, nodes s (t + 1) i = match nodes s t (2 * i), nodes s t (2 * i + 1) with
        | some a, some b =>
          let r := fp32.add (RMode.ofCode v3.rm.toNat) (drawOf s (64 * (t + 1) + i) 0) a.val b.val
          let p := a.poison || b.poison
          some { val := r.1, flags := a.flags ||| b.flags ||| (if p then 0 else r.2), poison := p }
        | some a, none => some a
        | none, b => b := by
  refine ⟨by decide +kernel, by decide +kernel, fun l hl => ⟨.inl rfl, ?_⟩, fun t i => rfl⟩
  have h : ∀ l, l < 64 → (((state (ctx [5, 3])).vsrc v3.va).lane l) = {} := by decide +kernel
  rw [h l hl]
  rfl

theorem test_hyp_Permutes :
    let s := state (ctx [5, 3])
    named s.cur 1 = true ∧ named s.cur 2 = true ∧ named s.cur 3 = true ∧ (∀ lat ∈ [2, 4], goes s [⟨lat, .vector 1 [], 0⟩] = true) ∧
      goes s [⟨4, .scalar 3 {}, 0⟩] = true := by decide +kernel

theorem test_hyp_ElementConversions :
    let s := state (ctx [5, 3])
    named s.cur 1 = true ∧ named s.cur 2 = true ∧ named s.cur 3 = true ∧ goes s [⟨4, .vector 1 [], 0⟩] = true := by decide +kernel

/-- The three codes of SCM that VBPACK takes. -/
theorem test_hyp_BlocksInRegisters : ∀ scm ∈ [0, 1, 2],
    let s := state (ctx [5, 3])
    let f : VSlot := { v3 with imm := BitVec.ofNat 13 scm }
    named s.cur 1 = true ∧ named s.cur 2 = true ∧ f.me = 0 ∧ f.imm.toNat % 4 ≠ 3 ∧ goes s [⟨6, .vector 1 [], 0⟩] = true := by decide +kernel

/-- Groups of one, two and three registers, the last triple that fits among them. -/
theorem test_hyp_WideFormsInRegisters :
    let s := state (ctx [5, 3])
    (∀ p ∈ [(1, 1), (62, 2), (60, 3), (4, 3), (8, 3)], p.1 % (if p.2 = 3 then 4 else p.2) = 0 ∧ ∀ i, i < p.2 → named s.cur (p.1 + i) = true) ∧
      goes s [⟨4, .vector 62 [], 0⟩, ⟨4, .vector 63 [], 0⟩] = true ∧
      (∀ lat ∈ [3, 4], goes s [⟨lat, .vector 60 [], 0⟩, ⟨lat, .vector 61 [], 0⟩, ⟨lat, .vector 62 [], 0⟩] = true) ∧
      goes s [⟨4, .vector 1 [], 0⟩] = true := by decide +kernel

/-- VALLOC 8 stands between v7, which may be named, and v8: each clause, with an absent register as the last. -/
theorem test_hyp_RegisterGroupTraps :
    let s := state { ctx [5, 3] with valloc := 8, absent := [6, 7] }
    let below := fun (n : Nat) => decide (s.cur.veff n < s.cur.valloc.toNat)
    (below 8 = false ∧ below 7 = true ∧ below 0 = true) ∧ s.cur.veff 7 ∈ s.cur.absent ∧ s.cur.lockLeft = none ∧ s.cur.inFtr = false ∧
      (∀ n ∈ [0, 5, 8], ∀ lat ∈ [2, 3, 5], goes s [⟨lat, .vector n [], 0⟩] = true) ∧ 5 % 4 ≠ 0 ∧ 5 % 2 = 1 ∧
      goes s [⟨3, .vector 5 [], 0⟩, ⟨3, .vector 6 [], 0⟩, ⟨3, .vector 7 [], 0⟩] = true ∧ goes s [⟨4, .vector 5 [], 0⟩, ⟨4, .vector 6 [], 0⟩] = true := by
  decide +kernel

/-- An operation of the S slot and one of the V slot that answer, alone, judged and committed. -/
theorem test_hyp_ScalarAndVectorFrame : ∀ m ∈ [IssueMode.whole, .judge, .commit],
    let s := (state (ctx [5, 3])).modIssue fun i => { i with mode := m }
    s.issue.fails = [] ∧ ∀ i ∈ [Instr.add s3, .vaddI32 { v0 with vb := 3 }], (match exec i s with | .next _ => true | _ => false) = true := by
  decide +kernel

/-! ### Formats: hypotheses -/

/-- FP32: the patterns at the ends of each clause of the decoding; 1, a tie above it, below the least subnormal, and around the overflow
threshold, each between its two neighbours. -/
theorem test_hyp_LinearAndWideFormats :
    let mag := binaryMag 24 (-126)
    let q := fun (m : Nat) (e : Int) => (m : ℚ) * 2 ^ e
    let top := (2 ^ 8 - 1) * 2 ^ 23
    (0x7F7FFFFF < top ∧ top < 0x7F800001 ∧ 0x7FFFFFFF < 2 ^ 31) ∧
    (mag 0x3F800000 = q 1 0 ∧ q 1 0 < mag 0x3F800001) ∧
    (mag 0x3F800000 < q (2 ^ 24 + 1) (-24) ∧ q (2 ^ 24 + 1) (-24) < mag 0x3F800001 ∧
      RoundsAway .rup false false 0 (mag 0x3F800000) (q (2 ^ 24 + 1) (-24)) (mag 0x3F800001) ∧
      ¬RoundsAway .rne false false 0 (mag 0x3F800000) (q (2 ^ 24 + 1) (-24)) (mag 0x3F800001)) ∧
    (mag 0 < q 1 (-150) ∧ q 1 (-150) < mag 1 ∧ 1 < 2 ^ 23) ∧
    (mag 0x7F7FFFFF < q (2 ^ 25 - 1) 103 ∧ q (2 ^ 25 - 1) 103 < mag top ∧ 0x7F7FFFFF + 1 = top ∧
      RoundsAway .rne false true 0 (mag 0x7F7FFFFF) (q (2 ^ 25 - 1) 103) (mag top)) ∧
    mag top ≤ q 1 128 ∧ (((2 ^ 63 - 1 : Int) : ℚ) < q 1 63 ∧ q (2 ^ 63 - 1) 0 ≤ ((2 ^ 63 - 1 : Int) : ℚ)) ∧
    (∀ e ∈ [(true, 2 ^ 63, -2 ^ 63), (true, 2 ^ 63 + 1, -2 ^ 63 - 1), (false, 2 ^ 63, 2 ^ 63)], (roundInt .rne 0 e.1 e.2.1 (0 + 40 - 40)).1 = e.2.2) ∧
    (⟨0, 0, 0⟩ : Rdw) ≠ ⟨0, 0, 0x8000000000000000#64⟩ := by
  refine ⟨?_, ?_, ?_, ?_, ?_, ?_, ?_, by decide +kernel, by decide⟩ <;> norm_num [binaryMag, RoundsAway]

/-- 03 R71, Table 0.1: −2^63 is kept, and what lies below it clamps to −2^63 + 1. -/
theorem test_a64_low : a64OfNum .rne 0 40 (.fin true (2 ^ 63) 0) = (-2 ^ 63, false, 0) ∧
    a64OfNum .rne 0 40 (.fin true (2 ^ 63 + 1) 0) = (-2 ^ 63 + 1, true, flSAT) := by decide +kernel

/-- A whole number, and a half between two whole numbers that rounds either way. -/
theorem test_hyp_LinearAndWideFormats_int :
    ((3 : ℚ) * 2 ^ (0 : Int) = ((3 : ℚ) * 2 ^ (0 : Int)).floor) ∧
    ((1 : ℚ) * 2 ^ (-1 : Int) ≠ ((1 : ℚ) * 2 ^ (-1 : Int)).floor) ∧
    (RoundsAway .rup false false 0 0 ((1 : ℚ) * 2 ^ (-1 : Int)) 1 ∧ ¬RoundsAway .rne false false 0 0 ((1 : ℚ) * 2 ^ (-1 : Int)) 1) := by
  have h : ((1 : ℚ) * 2 ^ (-1 : Int)).floor = 0 := by rw [show ((1 : ℚ) * 2 ^ (-1 : Int)) = 1 / 2 by norm_num]; decide +kernel
  have h3 : ((3 : ℚ) * 2 ^ (0 : Int)).floor = 3 := by rw [show ((3 : ℚ) * 2 ^ (0 : Int)) = 3 by norm_num]; decide +kernel
  refine ⟨by rw [h3]; norm_num, by rw [h]; norm_num, ?_⟩
  norm_num [RoundsAway]

/-- On the grid of eight steps: 1 stands on it, 9/8 between two of its members; LM16's greatest magnitude and twice that. -/
theorem test_hyp_LogFormats :
    (linMag 8 0 ≤ 1 ∧ (1 : ℚ) < linMag 8 1) ∧ (linMag 8 1 < 9 / 8 ∧ (9 / 8 : ℚ) < linMag 8 2) ∧
    ((0 : Int) * 2 ≤ 1 ∧ (1 : Int) < (0 + 1) * 2 ∧ (1 : Int) ≠ 0 * 2) ∧
    linMag 256 16383 < 1 * 2 ^ (64 : Int) ∧ ¬linMag 256 16383 < 1 * 2 ^ (63 : Int) ∧ linMag 8 (8 * 127 + 64 - 1) < 1 * 2 ^ (140 : Int) := by
  have h8 : gridTab 8 1 = 9147842 ∧ gridTab 8 2 = 9975792 ∧ gridTab 8 0 = 8388608 ∧ gridTab 8 7 = 15384775 := by decide +kernel
  have i8 : Int.toNat 2 = 2 ∧ Int.toNat 7 = 7 ∧ Int.toNat 255 = 255 := by decide
  have h256 : gridTab 256 255 = 16731851 := by decide +kernel
  norm_num [linMag, h8, h256, i8]

/-- A block of an infinity, an inexact number and fourteen zeros: the greatest index is the infinity's. -/
theorem test_hyp_LogFormats_block :
    let xs : List BlkSrc := .lin (.inf false) :: .lin (.fin true 3 0) :: List.replicate 14 (.lin (.fin false 0 0))
    let nz := fun k => k < 2
    let ix := fun k => k = 1
    let neg := fun k => k == 1
    let g := fun k => if k = 0 then (2 ^ 30 : Int) else (roundLinToGrid 8 .rne 0 true 3 0).1
    xs.length = 16 ∧
    (∀ k, k < 16 → (∃ q, xs[k]? = some (.lin (.inf q)) ∧ nz k ∧ ¬ix k ∧ g k = 2 ^ 30 ∧ neg k = q) ∨
      ((∃ q x, xs[k]? = some (.lin (.fin q 0 x))) ∨ (∃ ns, xs[k]? = some (.log ns .zero))) ∧ ¬nz k ∧ ¬ix k ∨
      (∃ ns q h, xs[k]? = some (.log ns (.num q h)) ∧ nz k ∧ neg k = q ∧
        (ix k ↔ (roundLogToGrid ns 8 .rne 0 q h).2 = true) ∧ g k = (roundLogToGrid ns 8 .rne 0 q h).1) ∨
      (∃ q, ∃ m : Nat, ∃ x : Int, 0 < m ∧ xs[k]? = some (.lin (.fin q m x)) ∧ nz k ∧ neg k = q ∧
        (ix k ↔ (roundLinToGrid 8 .rne 0 q m x).2 = true) ∧ g k = (roundLinToGrid 8 .rne 0 q m x).1)) ∧
    (∃ k, k < 16 ∧ nz k ∧ g k = 2 ^ 30) ∧ (∀ k, k < 16 → nz k → g k ≤ 2 ^ 30) ∧
    (∃ x ∈ ([.lin (.nan false)] : List BlkSrc), x.isNan = true) ∧ (∀ x ∈ ([.lin (.fin true 0 5)] : List BlkSrc), x.isZero = true) ∧
    (∀ x ∈ xs, x.isNan = false) ∧ (∃ x ∈ xs, x.isZero = false) ∧ BlkSrc.lin (.nan true) ∉ xs ∧ (∀ i, [0, 1, 2, 3].getD i 0 < 4) := by
  have h : roundLinToGrid 8 .rne 0 true 3 0 = (13, true) := by decide +kernel
  refine ⟨rfl, fun k hk => ?_, ⟨0, by decide⟩, fun k _ _ => ?_, by decide, by decide, by decide, by decide, by decide, fun i => ?_⟩
  · rcases k with _ | _ | k
    · exact .inl ⟨false, rfl, by decide⟩
    · exact .inr (.inr (.inr ⟨true, 3, 0, by decide, rfl, by simp [h]⟩))
    · refine .inr (.inl ⟨.inl ⟨false, 0, ?_⟩, by simp⟩)
      simp only [List.getElem?_cons_succ, List.getElem?_replicate]
      simp [show k < 14 by omega]
  · simp only [h]
    split <;> norm_num
  · rcases i with _ | _ | _ | _ | i <;> simp

/-- 06 R158: given scales 00h and FFh, and a scale under which 1.0 has code 64 + 8 and 2^−40 none; given sub-scales of which a dead quad keeps
none. -/
theorem test_block_scales :
    let xs : List BlkSrc := .lin (.fin false 1 0) :: .lin (.fin true 1 (-40)) :: List.replicate 14 (.lin (.fin false 0 0))
    lb8.encode .rne (fun _ => 0) (some 0) none xs = (List.replicate 18 0, flNX ||| flUF) ∧
    lb8.encode .rne (fun _ => 0) (some 255) none xs = (0xFF#8 :: List.replicate 17 0, 0) ∧
    lb8.encode .rne (fun _ => 0) (some 126) (some [0, 3, 0, 0]) xs = ([126, 0, 72] ++ List.replicate 15 0, flUF ||| flNX) := by decide +kernel

/-! ### M slot: hypotheses -/

/-- Operands of a matrix command: P0 in A, P1 in B; a layout of the weight store of die 0 in record 0, exactly as long as a wide load of
128 rows of pitch 256; operand-memory regions 0 and 63 claimed; a sync register that waits on semaphore 1 and signals semaphore 255. -/
def mctx (a b : Nat) (bad : List Nat := []) : Ctx :=
  { ctx [BitVec.ofNat 64 a, BitVec.ofNat 64 b] bad with
    layouts := [(0, { live := true, gen := 1, va := 0x1000000000000000, len := 32768, canRead := true, canWrite := true, space := 1
                      segs := [{ va := 0x1000000000000000, space := .wstore 0, off := 0, len := 32768 }] })]
    sync := [(1, { inc := 1, ssem := 255, thr := 1, wsem := 1 })] }

def mtile : Tile := { claims := [(0, 0), (62, 0), (63, 0)], pins := [(3, 0)] }

def m1 : MSlot := { sy := 1, sa := 0, sb := 1, os := 63, ot := 0, ar := 0 }

/-- What every clause asks: the bundle may issue, the semaphores of the sync register exist, a place is free. -/
def mready (s : State) : Bool :=
  goes s [] && (s.cur.syncFails (s.cur.syncReg 1)).isEmpty && decide ((s.curTile.mq.filter fun m => m.head.st == .queued && !m.head.begunOnce).length < 4)

/-- Each operation's clause, at the ends of its ranges: the layout's last byte, entry 1,023, the 64 bytes before the scratchpad's end,
regions that are free and regions that are the context's own. -/
theorem test_hyp_MatrixAccepted :
    let claimed := fun (s : State) n => FMap.get? s.curTile.claims n = some s.issue.ctx
    let s := fun (a b : Nat) => state (mctx a b) mtile
    (mready (s 0 0) = true ∧ claimed (s 0 0) 63 ∧ claimed (s 0 0) 0) ∧
    (let z := s 0x10000 (256 * 2 ^ 32)
     let c := 256 * 2 ^ 32
     mready z = true ∧ (z.cur.layoutOf (z.plainOp 0).val).map (fun y => (y.1, y.2.space, y.2.canRead, bits y.2.va 33 32)) = some (0, 1, true, dieOf z.issue.tile) ∧
     (z.plainOp 0).poison = false ∧ (z.plainOp 1).poison = false ∧ c < 2 ^ 52 ∧ c / 2 ^ 48 % 8 = 0 ∧ c % 2 ^ 32 % 2 = 0 ∧ c / 2 ^ 32 % 2 ^ 16 = 256 ∧
     c % 2 ^ 32 + 127 * 256 + 256 = 32768) ∧
    (let c := 127 + 2 ^ 8 * 0
     mready (s c 0) = true ∧ c < 2 ^ 23 ∧ c / 2 ^ 15 % 2 = 0 ∧ c / 2 ^ 7 % 2 = 0 ∧ c / 2 ^ 8 % 2 ^ 7 + (c % 2 ^ 7 + 1 - 1) * (c / 2 ^ 16 % 2 ^ 7 + 1) = 127 ∧
     896 + (c % 2 ^ 7 + 1) = 1024) ∧
    (let c := 127 + 2 ^ 16
     let d := 1023
     mready (s 0 c) = true ∧ mready (s 0x3FFFC0 d) = true ∧ c / 2 ^ 10 % 2 ^ 6 = 0 ∧ c / 2 ^ 18 % 2 ^ 30 = 0 ∧ c < 2 ^ 48 ∧ c / 2 ^ 16 % 2 = 1 ∧
     c % 2 ^ 10 + 1 ≤ 128 ∧ d / 2 ^ 16 % 2 = 0 ∧ 0 + (d % 2 ^ 10 + 1) = 1024 ∧ 0x3FFFC0 % 64 = 0 ∧ 0x3FFFC0 < 0x400000 ∧
     0x400000 - 3072 * 1024 + 3072 * (d % 2 ^ 10 + 1) = 0x400000 ∧ (0x400000 - 3072 * 1024) % 64 = 0) ∧
    (mready (s 1023 0) = true ∧ 1023 < 2 ^ 10 ∧ 0 + 1023 + 1 ≤ 1024) ∧
    (∀ a ∈ [32767, 2 ^ 64 - 32768], mready (s a 0) = true ∧ -32768 ≤ ((s a 0).plainOp 0).val.toInt ∧ ((s a 0).plainOp 0).val.toInt ≤ 32767) ∧
    (∀ i, i < 64 → FMap.get? mtile.claims i = none ∨ FMap.get? mtile.claims i = some 0) ∧
    (mready (s 0x3FFFF8 0) = true ∧ 0x3FFFF8 % 8 = 0 ∧ 0x3FFFF8 < 0x400000) ∧
    ∀ i, i < 64 → FMap.get? mtile.pins i = none ∨ FMap.get? mtile.pins i = some 0 := by decide +kernel

/-- Pages of a wide load under a slot that is usable, and under one that is not. -/
theorem test_hyp_MatrixAccepted_keys :
    let z := state (mctx 0x10000 (256 * 2 ^ 32)) mtile
    let keyed : State := { z with keys := [(0, { tenant := 0, share := true, pair := 0 })] }
    let pages := cutSegs [{ va := 0x1000000000000000, space := .wstore 0, off := 0, len := 32768 }] 0 32768
    (pages.all fun g => keyed.keyUsable g.key 0) = true ∧ mready keyed = true ∧ (pages.find? fun g => !z.keyUsable g.key 0).isSome = true := by
  decide +kernel

/-- Each clause in its order, with a semaphore index at the count and one below it, and a full queue. -/
theorem test_hyp_MatrixRefused :
    let claimed := fun (s : State) n => FMap.get? s.curTile.claims n = some s.issue.ctx
    let s := fun (a : Nat) (bad : List Nat) (cnt : Nat) => state { mctx a 0 bad with semcnt := BitVec.ofNat 9 cnt } mtile
    let full := state (mctx 0 0) { mtile with mq := List.replicate 4 { head := {}, op := .wload } }
    goes (s 0 [1] 256) [] = true ∧ ((s 0 [1] 256).plainOp 0).poison = true ∧
    goes (s 0x80 [] 256) [] = true ∧ 0x80 / 2 ^ 7 % 2 ≠ 0 ∧
    goes (s 0 [] 256) [] = true ∧ 1024 < 1024 + (0 % 2 ^ 7 + 1) ∧ 1023 + (0 % 2 ^ 7 + 1) ≤ 1024 ∧
    ¬claimed (s 0 [] 256) 1 ∧ claimed (s 0 [] 256) 63 ∧ claimed (s 0 [] 256) 0 ∧
    ((s 0 [] 256).cur.syncReg 1).thr ≠ 0 ∧
    (s 0 [] 1).cur.semcnt.toNat ≤ ((s 0 [] 1).cur.syncReg 1).wsem.toNat ∧
    ((s 0 [] 2).cur.syncReg 1).wsem.toNat < (s 0 [] 2).cur.semcnt.toNat ∧ (s 0 [] 2).cur.semcnt.toNat ≤ ((s 0 [] 2).cur.syncReg 1).ssem.toNat ∧
    ((s 0 [] 256).cur.syncReg 1).wsem.toNat < 256 ∧ ((s 0 [] 256).cur.syncReg 1).ssem.toNat < 256 ∧
    goes full [] = true ∧ 4 ≤ (full.curTile.mq.filter fun m => m.head.st == .queued && !m.head.begunOnce).length ∧
    full.cur.lockLeft = none ∧ full.cur.inFtr = false := by decide +kernel

/-! ### X slot: hypotheses -/

/-- Operands P0 to P3; the first GiB of HBM translated, readable and writable under the key in slot 0. -/
def xstate (vs : List Nat) (k : Ctx → Ctx := id) (x : Tile → Tile := id) (s : State := .reset) : State :=
  state (k (mctxs vs)) (x { tlb := [{ tenant := 0, space := 0, shift := 30, vpn := 0, base := 0, ord := 1, perm := 3, key := 0, cow := false }] })
    { s with keys := [(0, { tenant := 0, share := true, pair := 0 })] }
where mctxs (vs : List Nat) : Ctx :=
  { mctx 0 0 with sregs := (ctx (vs.map (BitVec.ofNat 64))).sregs }

/-- What every clause asks of an X command on channel 0. -/
def xready (s : State) : Bool :=
  goes s [] && (s.cur.syncFails (s.cur.syncReg 1)).isEmpty && decide ((s.curTile.xq.filter fun y => y.ch == 0).length < 4)
    && (List.range 4).all fun p => !(s.plainOp (BitVec.ofNat 3 p)).poison

/-- Neither side of a transfer fails, and they do not meet. -/
def apart (dst src list : Found) : Bool :=
  dst.before.isEmpty && src.before.isEmpty && dst.after.isEmpty && src.after.isEmpty && decide ((dst.idents ++ src.idents).eraseDups.length ≤ 64)
    && dst.side.segs.all fun x => (src.side.segs ++ list.side.segs).all fun y => !x.meets y

/-- A copying form finds its places, through a layout record that covers every global range where there is one. -/
def movable (s : State) (into from' index : Arg) : Bool :=
  let ranges := into.ranges true ++ from'.ranges false
  let lay := s.layoutOver s.cur ranges
  let first := s.firstOver ranges
  apart (s.find into true lay first) (s.find from' false lay first) (s.find index false lay first)

/-- COPY of the longest length, GET and PUT up to the scratchpad's last byte, GATHER and SCATTER of the largest element; a GET that a layout
record covers; a global operand's own premises. -/
theorem test_hyp_TransfersAccepted :
    (let s := xstate [0x10000000, 0, 2 ^ 27]
     xready s = true ∧ movable s (.glob (s.plainOp 0).val (2 ^ 27)) (.glob (s.plainOp 1).val (2 ^ 27)) .none = true ∧
     (s.globalFails s.cur (s.plainOp 0).val (2 ^ 27)).isEmpty = true) ∧
    (let s := xstate [0x3FF000, 0, 0x1000]
     xready s = true ∧ movable s (.near (s.plainOp 0).val 0x1000) (.glob (s.plainOp 1).val 0x1000) .none = true ∧ 0x3FF000 + 0x1000 = 0x400000) ∧
    (let s := xstate [0, 0x3FF000, 0x1000]
     xready s = true ∧ movable s (.glob (s.plainOp 0).val 0x1000) (.near (s.plainOp 1).val 0x1000) .none = true) ∧
    (let s := xstate [0, 0x1000000000000000, 0x100]
     xready s = true ∧ (s.layoutOver s.cur [((s.plainOp 1).val, 0x100, false)]).isSome = true ∧
     movable s (.near (s.plainOp 0).val 0x100) (.glob (s.plainOp 1).val 0x100) .none = true) ∧
    (let w := 2 ^ 40 + 4096 * 2 ^ 16 + 1
     let s := xstate [0, 0, 0x3FFFF8, w]
     xready s = true ∧ w / 2 ^ 31 % 2 ^ 9 = 0 ∧ w / 2 ^ 15 % 2 = 0 ∧ 0 < w / 2 ^ 40 ∧ w / 2 ^ 16 % 2 ^ 13 = 4096 ∧ w % 2 ^ 15 + 1 = 2 ∧ w / 2 ^ 29 % 2 = 0 ∧
     0x3FFFF8 % 4 = 0 ∧ 0x3FFFF8 + 2 * 4 = 0x400000 ∧ 0 + 2 * 4096 ≤ 0x400000 ∧
     movable s (.near 0 8192) (.glob (s.plainOp 1).val 4096) (.near 0x3FFFF8 8) = true ∧
     movable s (.glob (s.plainOp 0).val 4096) (.near 0 8192) (.near 0x3FFFF8 8) = true) := by decide +kernel

/-- Each command, at the ends of its ranges. The sheet is number 5 of switch 2, live in generation 1. -/
theorem test_hyp_LayoutAndSheetCommands :
    (let s := xstate [0x1000000000000000, 128, 3]
     xready s = true ∧ (s.layoutRange (s.plainOp 0).val 128).isSome = true ∧ 128 ≤ 2 ^ 36 ∧ 0 < 3 ∧ 3 ≤ 3) ∧
    (let s := xstate [0x10000]
     xready s = true ∧ (s.cur.layoutOf (s.plainOp 0).val).isSome = true) ∧
    (let s := xstate [0x3FFFC0, 64]
     xready s = true ∧ 0x3FFFC0 % 64 = 0 ∧ 64 % 64 = 0 ∧ 0x3FFFC0 + 64 = 0x400000) ∧
    (let w := 2 ^ 18 + 12 + 2
     xready (xstate [w]) = true ∧ w < 2 ^ 19 ∧ w / 2 ^ 18 = 1 ∧ w / 2 ^ 15 % 2 ^ 3 = 0 ∧ w / 4 % 4 ≠ 0 ∧ w % 4 ≠ 3) ∧
    (let h := 3 * 2 ^ 60 + 1 * 2 ^ 43 + 2 * 2 ^ 40 + 5 * 2 ^ 21
     let s := xstate [h] id id { State.reset with switches := [(2, { sheets := [(5, { live := true, perm := 3 })] })] }
     xready s = true ∧ GAddr.ofWord (s.plainOp 0).val = some (.switch 1 2 false 5 0) ∧ (s.sheet 2 5).named 2 = true ∧ (s.sheet 2 5).gen.toNat = 1 ∧
     (s.sheet 2 5).mir = false) ∧
    xready (xstate [127 - 10]) = true ∧ (127 - 10) % 16 = 5 ∧ 127 - 10 < 128 := by decide +kernel

/-- A handle of sheet 5 of switch 2, generation 1, that the tenant reads and writes; RC. -/
def sheetHandle : Nat := 3 * 2 ^ 60 + 2 ^ 43 + 2 * 2 ^ 40 + 5 * 2 ^ 21

def sheetState (vs : List Nat) (k : Ctx → Ctx := id) (x : Tile → Tile := id) : State :=
  xstate vs k x { State.reset with switches := [(2, { sheets := [(5, { live := true, perm := 3, ord := 1 })] })] }

/-- Register and block forms, the block of the whole sheet and of the scratchpad's end among them; atomics at the last aligned 8 bytes. -/
theorem test_hyp_SheetAccesses :
    (let n := 8
     let s := sheetState [sheetHandle, 0x1FFFF8, 0, 2 ^ 24 + n]
     let x := (s.plainOp 0).val + (s.plainOp 1).val
     xready s = true ∧ (2 ^ 24 + n) / 2 ^ 22 % 4 = 0 ∧ 2 ^ 24 + n < 2 ^ 25 ∧ (2 ^ 24 + n) % 2 ^ 22 = n ∧ ((s.plainOp 3).val).getLsbD 24 = true ∧ x.toNat % n = 0 ∧
     (s.smAccess x n true false).isEmpty = true ∧ (s.smAccess x n false true).isEmpty = true ∧ (s.smAccess x n true true).isEmpty = true ∧ s.sheetOrd x ≠ 0) ∧
    (let n := 0x200000
     let s := sheetState [sheetHandle, 0, 0x200000, n]
     let x := (s.plainOp 0).val + (s.plainOp 1).val
     xready s = true ∧ n / 2 ^ 22 % 4 = 0 ∧ n % 2 ^ 22 = n ∧ 0x200000 + n = 0x400000 ∧ ((s.plainOp 3).val).getLsbD 24 = false ∧
     (s.smAccess x n true false).isEmpty = true ∧ (s.smAccess x n false true).isEmpty = true) := by decide +kernel

/-- The three moments of a far acquire of a sheet, the last unpoisoned and poisoned, with the command that carries it. -/
theorem test_hyp_SheetAcquires : ∀ q ∈ ([none, some { id := 7 }, some { id := 7, back := some (9, false, 0) }, some { id := 7, back := some (9, true, 0) }] :
      List (Option FarAcquire)),
    let s := sheetState [sheetHandle, 0x1FFFF8, 0, 2 ^ 24 + 8] (fun k => { k with farAcq := q })
      fun x => { x with xq := if q = none then [] else [{ head := { id := 7 }, op := .smld, ch := 0, far := true }] }
    let x := (s.plainOp 0).val + (s.plainOp 1).val
    let l : Landing := { Result.flight s.now ⟨1, .scalar 14 { val := 9 }, 0⟩ with free := true }
    xready s = true ∧ (s.smAccess x 8 true false).isEmpty = true ∧ (s.smAccess x 8 true true).isEmpty = true ∧ s.sheetOrd x ≠ 0 ∧ x.toNat % 8 = 0 ∧
    ((s.plainOp 3).val).getLsbD 24 = true ∧ s.cur.lockLeft = none ∧ s.cur.inFtr = false ∧ unhindered s [l] [] = true ∧
    (s.curTile.findX 7).isSome = decide (q ≠ none) ∧ s.issue.pc = 0 := by
  simp only [List.forall_mem_cons]
  exact ⟨by decide +kernel, by decide +kernel, by decide +kernel, by decide +kernel, List.forall_mem_nil _⟩

/-- The block form, up to the scratchpad's last byte: before it departs, and back with its block written. -/
theorem test_hyp_SheetAcquires_block : ∀ q ∈ ([none, some { id := 7, back := some (0, false, 0) }] : List (Option FarAcquire)),
    let near : Side := { va := 0x3FFFF8, len := 8, segs := [{ va := 0x3FFFF8, space := .scratch 0, off := 0x3FFFF8, len := 8 }] }
    let cmd : XCmd := { head := { id := 7 }, op := .smld, ch := 0, far := true, dst := near, writes := near.segs }
    let s := sheetState [sheetHandle, 0, 0x3FFFF8, 8] (fun k => { k with farAcq := q }) fun x => { x with xq := if q = none then [] else [cmd] }
    xready s = true ∧ (s.smAccess ((s.plainOp 0).val + (s.plainOp 1).val) 8 true false).isEmpty = true ∧ ((s.plainOp 3).val).getLsbD 24 = false ∧
    0x3FFFF8 + 8 = 0x400000 ∧ (q ≠ none → s.curTile.findX 7 = some cmd) ∧ unhindered s [] [] = true := by
  simp only [List.forall_mem_cons]
  exact ⟨by decide +kernel, by decide +kernel, List.forall_mem_nil _⟩

/-- An update of one group whose weights end the layout, under a slot that is usable and one that is not, its gradients and state side by side; a recipe at the scratchpad's end. -/
theorem test_hyp_BurnishAccepted :
    (let s := xstate [0x10000, 0x1000, 0x1100, 255]
     let b := (s.plainOp 1).val
     let c := (s.plainOp 2).val
     xready s = true ∧ 255 / 2 ^ 25 % 2 ^ 7 = 0 ∧ 255 < 2 ^ 61 ∧ (s.burnishLayout (s.plainOp 0).val).map (fun y => y.2.len) = some 32768 ∧
     128 * (255 + 1) = 32768 ∧ b.toNat % 64 = 0 ∧ c.toNat % 64 = 0 ∧ s.localHbm b 256 = some 0x1000 ∧ s.localHbm c 384 = some 0x1100 ∧
     0x1000 + 256 ≤ 0x1100 ∧ (let lay := s.layoutOver s.cur [(b, 256, false), (c, 384, true)]
      apart (s.findGlobal c 384 true lay b) (s.findGlobal b 256 false lay b) {} = true) ∧
     (let weights := cutSegs [{ va := 0x1000000000000000, space := .wstore 0, off := 0, len := 32768 }] (128 * 255) 128
      let keyless : State := { s with keys := [] }
      (∀ g ∈ weights, s.keyUsable g.key 0 = true) ∧ xready keyless = true ∧ (weights.find? fun g => !keyless.keyUsable g.key 0).isSome = true)) ∧
    (let w := 2 ^ 62 + 15 * 2 ^ 56
     let s := xstate [0, 0x3FFFC0, 0, w]
     xready s = true ∧ w / 2 ^ 62 = 1 ∧ w / 2 ^ 60 % 4 = 0 ∧ w / 2 ^ 32 % 2 ^ 24 = 0 ∧ w % 2 ^ 25 = 0 ∧ w / 2 ^ 25 % 2 ^ 7 = 0 ∧
     (s.plainOp 1).val.toNat % 64 = 0 ∧ (s.plainOp 1).val.toNat + 64 = 0x400000) := by decide +kernel

/-! ### F slot: hypotheses -/

/-- Tile 0 has 64 beats in the FIFO of its port 1 and of port 3; sync register 1 waits for 1 on semaphore 1, which holds 1. -/
def fstate (vs : List Word) : State :=
  state { ctx vs with sync := (mctx 0 0).sync }
    { sems := [(1, { value := 1 })]
      fifos := [(1, List.replicate 64 ⟨List.replicate 64 0, List.replicate 64 false⟩), (3, List.replicate 64 ⟨List.replicate 64 0, List.replicate 64 false⟩)] }

/-- The most beats, up to the last byte of the scratchpad and of the accumulators; the reservations they make are free. -/
theorem test_hyp_FabricCommands :
    let s := fstate [0x3FF000, 0, 0xFF000]
    let y := s.cur.syncReg 1
    oppositePort 1 = 3 ∧ s.hasLink 0 1 = true ∧ (s.cur.syncFails y).isEmpty = true ∧
    (y.thr ≠ 0 ∧ y.thr.toNat ≤ (s.curTile.sem (s.cur.semAt y.wsem.toNat)).value.toNat) ∧
    (∀ q ∈ [1, 3], FMap.get? s.curTile.overruns q = none ∧ 64 ≤ (FMap.getD s.curTile.fifos q []).length ∧
      ∀ b ∈ (FMap.getD s.curTile.fifos q []).take 64, ∀ x ∈ b.poison, x = false) ∧
    (∀ p ∈ [FOp.send, .recv], (reserveChecks s p 1 0x3FF000 64).isEmpty = true) ∧ (reserveChecks s (.addAcc false) 1 0xFF000 64).isEmpty = true ∧
    (∀ p ∈ [FOp.relay, .addReg], (reserveChecks s p 1 0 12).isEmpty = true) ∧ goes s [] = true ∧
    (s.plainOp 0).val.toNat % 64 = 0 ∧ (s.plainOp 0).val.toNat + 64 * 64 = 0x400000 ∧
    (s.plainOp 2).val.toNat % 64 = 0 ∧ (s.plainOp 2).val.toNat + 64 * 64 = 0x100000 ∧ (s.plainOp 1).val.toNat ≤ 1 ∧ 63 % 3 = 0 ∧
    (∀ r ∈ accRegions 0xFF000 64, s.curTile.regionBusy r = false) ∧
    (60 % 4 = 0 ∧ ∀ i, i < 3 → named s.cur (60 + i) = true) ∧
    goes s ((List.range 3).map fun i => ⟨8, .vector (60 + i) [], 0⟩) = true ∧ acquireCheck s = [] ∧ s.ownMesh = [] ∧
    (∀ r ∈ bankCycles .send 1 s.now 0x3FF000 64, s.ownLock r.1 = false) := by decide +kernel

/-- A lock of its own on the bank of a command's last beat, over before that beat; a store of its context on the mesh to a tile that takes it,
and to one in scrub. -/
theorem test_hyp_FabricCommands_order :
    let s := fstate [0x3FF000, 0, 0xFF000]
    let l := s.modIssue fun i => { i with hdr := { i.hdr with blk := true, blkn := 0, blka := 31, blkb := 31 } }
    let r : MeshReq := { id := 5, tile := 0, ctx := 0, target := 50, row := 0, col := 0, op := .sta, data := {}, arrive := 20, way := 5 }
    let open' : State := { s with mesh := [r] }
    let kept : State := { s with mesh := [r], scrubs := [(50, (0, 0))] }
    (goes l [] = true ∧ (reserveChecks l .recv 1 0x3FF000 64).isEmpty = true ∧ (∃ x ∈ bankCycles .recv 1 l.now 0x3FF000 64, l.ownLock x.1 = true) ∧
      ∀ x ∈ bankCycles .recv 1 l.now 0x3FF000 64, l.ownLock x.1 = true → l.now + 1 + 2 * l.issue.hdr.blkn.toNat < x.2) ∧
    (∀ z ∈ [open', kept], goes z [] = true ∧ acquireCheck z = [] ∧ z.ownMesh = [r] ∧ z.cur.lockLeft = none ∧ z.cur.inFtr = false) ∧
    r.far = false ∧ open'.meshOpen r = true ∧ kept.meshOpen r = false := by decide +kernel

/-! ### C slot: hypotheses -/

/-- A target of 1FFFFh and one past it; −1; predicates true and false; a poisoned base; links empty, of one entry, and of 16. -/
theorem test_hyp_BranchesAndCalls :
    let s := fun (pc : Nat) (links : List Nat) (bad : List Nat) => state { ctx [5, 3] bad with pc := BitVec.ofNat 17 pc, links := links }
    (∀ p ∈ [(0, [], []), (0x1FFF0, [7], [1]), (0, List.replicate 15 3, []), (0, List.replicate 16 3, [])],
      goes (s p.1 p.2.1 p.2.2) [] = true) ∧
    ((s 0x1FFF0 [] []).issue.pc.toNat : Int) + (0xF#16).toInt = 0x1FFFF ∧ (0x1FFFF : Int) < ((s 0x1FFF0 [] []).issue.pc.toNat : Int) + (0x10#16).toInt ∧
    ((s 0 [] []).issue.pc.toNat : Int) + (0xFFFF#16).toInt < 0 ∧
    (s 0 [] []).cur.pred 0 = true ∧ (s 0 [] []).cur.pred 1 = false ∧
    ((s 0x1FFF0 [7] [1]).plainOp 0).poison = true ∧ ((s 0 [] []).plainOp 0).poison = false ∧
    (s 0 (List.replicate 15 3) []).cur.links.length < 16 ∧ 16 ≤ (s 0 (List.replicate 16 3) []).cur.links.length ∧
    (s 0x1FFF0 [7] [1]).cur.links = [7] ∧ (s 0 [] []).cur.links = [] := by decide +kernel

/-- A count of 0, of FFFFFFFFh, one more, a poisoned count, a level that is not temporal; a last and an earlier turn; a level not active. -/
theorem test_hyp_HardwareLoops :
    let s := fun (a : Nat) (bad : List Nat) (kind : Nat) (n : BitVec 32) (on : Bool) =>
      state { ctx [BitVec.ofNat 64 a, 3] bad with pc := 8, loops := [(1, { kind := kind, count := 5, n := n, cnt := 2, active := on })] }
    (∀ p ∈ [(0, [], 1, 0#32, true), (0xFFFFFFFF, [], 1, 1#32, true), (0x100000000, [1], 2, 0#32, false)],
      goes (s p.1 p.2.1 p.2.2.1 p.2.2.2.1 p.2.2.2.2) [] = true) ∧
    (let y := fun n on => FMap.getD (s 0 [] 1 n on).cur.loops 1 {}
     (y 0 true).kind = 1 ∧ (y 0 true).count = 5 ∧ (y 0 true).active = true ∧ (y 0 true).n + 1 < (y 0 true).cnt ∧ ¬((y 1 true).n + 1 < (y 1 true).cnt) ∧
      (y 0 false).active = false) ∧
    (FMap.getD (s 0 [] 2 0 true).cur.loops 1 {}).kind ≠ 1 ∧
    ((s 0xFFFFFFFF [] 1 0 true).plainOp 0).val.toNat = 0xFFFFFFFF ∧ 0xFFFFFFFF < ((s 0x100000000 [] 1 0 true).plainOp 0).val.toNat ∧
    ((s 0x100000000 [1] 2 0 false).plainOp 0).poison = true ∧
    ((s 0 [] 1 0 true).issue.pc.toNat : Int) + (0xFFF8#16).toInt = 0 ∧ ((s 0 [] 1 0 true).issue.pc.toNat : Int) + (4#16).toInt ≤ 0x1FFFF ∧
    ((s 0 [] 1 0 true).issue.pc.toNat : Int) + (0xFFF7#16).toInt < 0 := by
  decide +kernel

/-- A poisoned index and a poisoned count; index 255 of 256 and index 256; a count of FFFFh and one more; enough, one too few, an error. -/
theorem test_hyp_Semaphores :
    let s := fun (a b : Nat) (bad : List Nat) (m : Sem) => state (ctx [BitVec.ofNat 64 a, BitVec.ofNat 64 b] bad) { sems := [(255, m)] }
    (∀ p ∈ [(0, 0, [1]), (0, 0, [2]), (255, 0xFFFF, []), (256, 0, []), (255, 0x10000, [])],
      ∀ m ∈ [({ value := 0xFFFF } : Sem), { value := 0xFFFE }, { value := 3, err := true }], goes (s p.1 p.2.1 p.2.2 m) [] = true) ∧
    ((s 0 0 [1] {}).plainOp 0).poison = true ∧ ((s 0 0 [2] {}).plainOp 0).poison = false ∧ ((s 0 0 [2] {}).plainOp 1).poison = true ∧
    (s 256 0 [] {}).cur.semcnt.toNat ≤ 0 % 256 + ((s 256 0 [] {}).plainOp 0).val.toNat ∧
    0 % 256 + ((s 255 0 [] {}).plainOp 0).val.toNat < (s 255 0 [] {}).cur.semcnt.toNat ∧
    0xFFFF < 0 / 256 + ((s 255 0x10000 [] {}).plainOp 1).val.toNat ∧ 0 / 256 + ((s 255 0xFFFF [] {}).plainOp 1).val.toNat ≤ 0xFFFF ∧
    (let k := (s 255 0 [] { value := 0xFFFE }).cur.sembase.toNat + 255
     (FMap.getD (s 255 0 [] { value := 0xFFFE }).curTile.sems k {}).value = 0xFFFE ∧ (FMap.getD (s 255 0 [] { value := 3, err := true }).curTile.sems k {}).err = true) ∧
    (s 255 0 [] {}).cur.lockLeft = none ∧ (s 255 0 [] {}).cur.inFtr = false ∧ (s 255 0 [] {}).released 0 0 = true := by decide +kernel

/-- Phaser 3 of die 0, of the context's launch; slots 0 (signal), 1 (wait), 2 (signal-wait) filled, 3 empty. -/
def phstate (w : Nat) (ran : Bool) (x : Phaser) : State :=
  state { ctx [3, 5] with launch := 9, phcnt := 4
                          phslots := [(0, { phaser := { num := 3 }, role := .sig, arrival := 1 }), (1, { phaser := { num := 3 }, role := .wait, waitPh := w, overrun := ran }),
                                      (2, { phaser := { num := 3 }, role := .sw, waitPh := w, arrival := w + 1, overrun := ran }),
                                      (4, { phaser := { num := 3 }, role := .sw, waitPh := 1, arrival := 1 })] }
    {} { State.reset with phasers := [(3, x)] }

/-- Registering: no phaser of that number, one that is filled, a fresh one. Arriving, waiting before and after the phase, dropping. -/
theorem test_hyp_Phasers :
    let done : Phaser := { launch := 9, ph := 1, nsig := 2, nsigNext := 2, doneAt := [(0, [0, 0, 0, 0])] }
    let s := phstate 0 false done
    let early := phstate 1 false done
    let ran := phstate 0 true done
    (∀ z ∈ [s, early, ran], goes z [] = true) ∧
    (s.plainOp 0).poison = false ∧ s.phaserOf (s.plainOp 0).val = some { num := 3 } ∧ s.phaserOf 4 = none ∧ s.phaserOf 2 = some { num := 2 } ∧
    FMap.get? s.cur.phslots 0 ≠ none ∧ FMap.get? s.cur.phslots 3 = none ∧ s.phaser { num := 2 } = none ∧ done.launch = s.cur.launch ∧
    (255 : Nat) < s.cur.semcnt.toNat ∧ s.phaser { num := 3 } = some done ∧ (s.plainOp 1).poison = false ∧ 1 ≤ done.ph ∧ s.released 0 0 = true ∧
    done.ph ≤ 1 ∧ early.cur.lockLeft = none ∧ early.cur.inFtr = false ∧
    ({ done with got := true } : Phaser).got = true := by decide +kernel

/-- A signalling slot before its phase and when it is due, with an access still to be performed or none; a poisoned amount; a signalling and
waiting slot that has not arrived. -/
theorem test_hyp_Phasers_arrival :
    let x : Phaser := { launch := 9, nsig := 1, nsigNext := 1 }
    let soon := phstate 0 false x
    let due := phstate 0 false { x with ph := 1 }
    let busy := due.modCurTile fun y => { y with mq := [{ head := {}, op := .wload }] }
    let bad := due.modCur fun k => k.setSreg 2 { poison := true }
    let e : PhaserSlot := { phaser := { num := 3 }, role := .sig, arrival := 1 }
    (∀ z ∈ [soon, due, busy, bad], goes z [] = true ∧ FMap.get? z.cur.phslots 0 = some e) ∧
    soon.phaser e.phaser = some x ∧ x.ph < e.arrival ∧ soon.cur.lockLeft = none ∧ soon.cur.inFtr = false ∧
    due.phaser e.phaser = some { x with ph := 1 } ∧ e.arrival ≤ 1 ∧ due.released 0 0 = true ∧ busy.released 0 0 = false ∧
    (bad.cOp { c0 with sb := 1 } 1).poison = true ∧ (due.cOp { c0 with sb := 1 } 1).poison = false ∧
    FMap.get? due.cur.phslots 4 = some { phaser := { num := 3 }, role := .sw, waitPh := 1, arrival := 1 } := by decide +kernel

/-- The wait of a completed phase, four cycles after its last completion. -/
theorem test_hyp_Phasers_wait :
    let done : Phaser := { launch := 9, ph := 1, doneAt := [(0, [0, 0, 0, 0])] }
    let s : State := { phstate 0 false done with dies := [(0, { tick := 4, registered := true, dist := 0 })] }
    goes s [] = true ∧ FMap.get? s.cur.phslots 1 = some { phaser := { num := 3 }, role := .wait, waitPh := 0 } ∧ s.phaser { num := 3 } = some done ∧
    0 < done.ph ∧ ((FMap.get? done.doneAt 0).getD []).getD (dieOf s.issue.tile) 0 + 4 ≤ s.now := by decide +kernel

/-- Nothing under way and a command under way; in and out of a fixed-time region, with and without a lock; a mark at, before and too far
before the key time, and after it, the last under a lock too; a lock whose banks no fabric command holds; a region's end beside a
fabric command. -/
theorem test_hyp_WaitsAndRegions :
    let s := fun (a : Nat) (bad : List Nat) (ftr : Bool) (lock : Option Nat) =>
      state { ctx [BitVec.ofNat 64 a, 0] bad with inFtr := ftr, lockLeft := lock, ftrPorts := if ftr then [1] else [] } {}
        { State.reset with dies := [(0, { tick := 0x400, registered := true, dist := 0 })] }
    let busy := state (ctx [5, 3]) { mq := [{ head := {}, op := .wload }] }
    let late := fun (a : Nat) => ((s a [] false none).die 0).keyTime - (BitVec.ofNat 64 a + BitVec.ofNat 64 (((s a [] false none).die 0).stretchAt (BitVec.ofNat 64 a)))
    (∀ z ∈ [s 0 [] false none, s 0 [1] false none, s 0 [2] false none, s 0 [] true none, s 0 [] false (some 2), busy], goes z [] = true) ∧
    (¬((∃ r ∈ (s 0 [] false none).mesh, r.tile = 0 ∧ r.ctx = 0) ∨ (∃ m ∈ (s 0 [] false none).curTile.mq, m.head.ctx = 0) ∨
      ∃ x ∈ (s 0 [] false none).curTile.xq, x.head.ctx = 0)) ∧ (∃ m ∈ busy.curTile.mq, m.head.ctx = 0) ∧ busy.cur.lockLeft = none ∧ busy.cur.inFtr = false ∧
    ((s 0 [1] false none).plainOp 0).poison = true ∧ ((s 0 [2] false none).plainOp 1).poison = true ∧
    ((s 0 [] false none).isRegistered 0 = true ∧ (late 0).toInt = 0x400 ∧ (s 0 [] false none).cur.latemax.toNat = 0x400 ∧ (late 0x400).toInt = 0 ∧
      (late 0x401).toInt = -1 ∧ 0x400 < (late (2 ^ 64 - 1)).toInt) ∧
    (s 0 [] false none).cur.absent = [] ∧ ((s 0 [] false none).die 0).clock = 0 ∧ ((s 0 [] false none).die 0).clockTo = none ∧ (s 0 [] true none).cur.inFtr = true ∧
    (∀ p ∈ (s 0 [] true none).cur.ftrPorts, FMap.get? (s 0 [] true none).curTile.overruns p = none) ∧
    (s 0 [] false (some 2)).cur.lockLeft ≠ none ∧
    (let l := (s 0 [] false none).modIssue fun i => { i with hdr := { i.hdr with blk := true, blkn := 15, blka := 31, blkb := 0 } }
     goes l [] = true ∧ l.issue.hdr.blk = true ∧ l.curTile.reservedIn (l.now + 1) (l.now + 1 + 2 * 15) [31, 0] = false) ∧
    goes (s 0x401 [] false (some 2)) [] = true ∧
    (let e := (s 0 [] true none).modIssue fun i => { i with fabPorts := [2] }
     goes e [] = true ∧ ∀ p ∈ e.cur.ftrPorts ++ e.issue.fabPorts, FMap.get? e.curTile.overruns p = none) := by decide +kernel

/-- The supervisor level with no trap open, a precise one, and an engine one; a ticket that is poisoned, one of 2³⁴, the largest, and one that
names a parked context. -/
theorem test_hyp_TrapForms :
    let s := fun (a b : Nat) (bad : List Nat) (cause : BitVec 8) (eng : Bool) =>
      state { ctx [BitVec.ofNat 64 a, BitVec.ofNat 64 b] bad with lvl := 1, trapcause := cause, engineFlag := eng, heldCmd := if eng then 7 else 0 }
    let held : State := { (s 5 0 [] 0 false) with
      tiles := [(0, { ctxs := [(0, (s 5 0 [] 0 false).cur), (1, { st := .parked, ticket := some 5, parkedKind := 2 })] })] }
    (∀ z ∈ [s 0 0 [] 0 false, s 0 0 [1] 0x10 false, s 0 0 [] 0x28 true, held], goes z [] = true ∧ z.issue.lvl = 1) ∧
    (s 0 0 [] 0 false).cur.trapcause = 0 ∧ (s 0 0 [1] 0x10 false).cur.trapcause ≠ 0 ∧ (s 0 0 [1] 0x10 false).cur.engineFlag = false ∧
    (s 0 0 [] 0x28 true).cur.engineFlag = true ∧ ((s 0 0 [1] 0x10 false).plainOp 0).poison = true ∧
    2 ^ 34 ≤ ((s (2 ^ 34) 0 [] 0 false).plainOp 0).val.toNat ∧ ((s (2 ^ 34 - 1) 0 [] 0 false).plainOp 0).val.toNat < 2 ^ 34 ∧
    (∀ b ∈ [3, 2 ^ 49 - 2 ^ 32 + 2], b / 4 % 2 ^ 30 = 0 ∧ b < 2 ^ 49) ∧ 4 / 4 % 2 ^ 30 ≠ 0 ∧ 2 ^ 49 ≤ ((s 0 (2 ^ 49) [] 0 false).cOp { c0 with sb := 1 } 1).val.toNat ∧
    ((s 0 0 [2] 0 false).cOp { c0 with sb := 1 } 1).poison = true ∧ goes (s 0 (2 ^ 49) [2] 0 false) [] = true ∧ (s 0 0 [] 0 false).released 0 0 = true ∧
    (s 5 0 [] 0 false).findTicket 5 = none ∧ (s 5 0 [] 0 false).saved = [] ∧ held.findTicket 5 = some (0, 1) ∧ (held.ctx 0 1).parkedKind = 2 := by
  decide +kernel

/-- At the user level, alone and among other slots. -/
theorem test_hyp_PrivilegeTraps :
    let s := state (ctx [5, 3])
    s.issue.lvl = 0 ∧ goes s [] = true ∧ (s.modIssue fun i => { i with mode := .judge }).issue.mode = .judge := by decide +kernel

/-! ### Events: hypotheses -/

/-- Die 0 at cycle 100, tile 0 with context 0, the event about them and command 7. -/
def event (k : Ctx) (x : Tile := {}) (args : List Nat := []) (s : State := .reset) : State :=
  { s with tiles := [(0, { x with ctxs := [(0, k)] })], dies := [(0, { tick := 100, registered := true, dist := 0 })]
           focus := { tile := 0, ctx := 0, id := 7, args := args } }

/-- A landing due now, one that lands late, a register to fill, a far acquire back over the mesh and from a switch, a block one whose bytes
are moved, are fetched with poison and without, and are still to come, a walk that is over. -/
theorem test_hyp_ResultLandings :
    (∀ free ∈ [false, true],
      let l : Landing := { id := 7, due := 100, dest := .scalar 3 {}, free := free }
      let s := event { ctx [5] with inflight := [l] }
      ((s.ctx 0 0).inflight.find? fun x => x.id == s.focus.id) = some l ∧ l.due ≤ s.tickOf 0 ∧ l.waits = false ∧ (free = true → (s.ctx 0 0).portFree (s.tickOf 0) l.dest = true)) ∧
    (let s := event { ctx [5] with absent := [3, 4], fillAt := 100 }
     (s.ctx 0 0).absent = [3, 4] ∧ (s.ctx 0 0).fillAt ≤ s.tickOf 0) ∧
    (∀ n ∈ [0x0B0, 0x040],
      let l : Landing := { id := 7, due := 100, dest := .csr n 1 }
      let s := event { ctx [5] with inflight := [l] }
      ((s.ctx 0 0).inflight.find? fun x => x.id == s.focus.id) = some l ∧ l.due ≤ s.tickOf 0 ∧ l.waits = false ∧ l.free = false) ∧
    (let r : MeshReq := { id := 7, tile := 0, ctx := 0, target := 50, row := 0, col := 0, op := .lda, data := {}, arrive := 20, way := 5, far := true, backAt := some 100 }
     let s := event { ctx [5] with farAcq := some { id := 7 } } {} [] { State.reset with mesh := [r] }
     (s.mesh.find? fun r => r.id == s.focus.id && r.far) = some r ∧ 100 ≤ s.tickOf 0 ∧ (s.ctx 0 0).farAcq = some { id := 7 }) ∧
    (let x : XCmd := { head := { id := 7 }, op := .smld, far := true, d := 0x1000000, stopped := true, value := some { val := 9 } }
     let s := event { ctx [5] with farAcq := some { id := 7 } } { xq := [x] }
     (s.mesh.find? fun r => r.id == s.focus.id && r.far) = none ∧ (s.tile 0).findX 7 = some x ∧ (s.ctx 0 0).farAcq = some { id := 7 } ∧
     x.moves = false ∧ x.far = true) ∧
    (∀ e ∈ [(true, 8, false), (false, 8, true), (false, 8, false), (false, 0, false)],
      let x : XCmd := { head := { id := 7 }, op := .smld, far := true, src := { len := 8 }, dst := { len := 8 }, stopped := e.1, srcAt := e.2.1, buf := [(0, e.2.2)] }
      let s := event { ctx [5] with farAcq := some { id := 7 } } { xq := [x] }
      (s.tile 0).findX 7 = some x ∧ x.moves = true ∧ x.far = true ∧ (x.moved, x.srcAt, bytesPoison x.buf) = e) ∧
    (let s := event { ctx [5] with walks := [{ space := 0, off := 4096 }] } {} [0, 4096]
     s.focus.args = [0, 4096] ∧ ∃ w ∈ (s.ctx 0 0).walks, w.space = 0 ∧ w.off = 4096 ∧ w.res = none) := by decide +kernel

/-- A walk that ends in a leaf: tenant 0's first table at 1000h, its first entry a page of 1 GiB at 0. -/
theorem test_hyp_ResultLandings_leaf :
    let s := event { ctx [5] with walks := [{ space := 0, off := 4096 }] } {} [0, 4096]
      { State.reset with descs := [(0, [0, 0x1001])], hbm := ⟨[(0x1000, 0x4F), (0x1001, 3)], []⟩, hbmPair := [(64, 0)] }
    s.walk 0 0 4096 = .leaf { tenant := 0, space := 0, shift := 30, vpn := 0, base := 0, ord := 1, perm := 3, key := 0, cow := false } ∧
    (∃ w ∈ (s.ctx 0 0).walks, w.space = 0 ∧ w.off = 4096 ∧ w.res = none) ∧ ∀ e ∈ s.tiles, ∀ x ∈ e.2.xq, s.layregSeeks e.1 0 0 4096 x = false := by
  decide +kernel

/-- Commands that may begin, one of which faults; commands that are over, with a result and without; a beat that arrives. -/
theorem test_hyp_EngineCommands :
    (let m : MCmd := { head := { id := 7 }, op := .wload }
     let s := event (ctx [5]) { mq := [m] }
     (s.tile 0).findM 7 = some m ∧ m.head.clear = true ∧ s.mayBeginM 0 m = true ∧ (s.tile 0).beginFault m ((s.tile 0).entryImage m) = none) ∧
    (let m : MCmd := { head := { id := 7 }, op := .stream false false }
     let s := event (ctx [5]) { mq := [m] }
     s.mayBeginM 0 m = true ∧ (s.tile 0).beginFault m ((s.tile 0).entryImage m) = some 1) ∧
    (let m : MCmd := { head := { id := 7, st := .running, began := 90 }, op := .anchor }
     m.head.st = .running ∧ m.doneAt ≤ m.off 100 ∧ m.loadsEntry = false ∧ m.rows = m.rowGoal ∧ m.pipe = []) ∧
    (let m : MCmd := { head := { id := 7, st := .running, began := 90 }, op := .fmtsel, ot := 1, loaded := true }
     m.doneAt ≤ m.off 100 ∧ m.loadsEntry = true ∧ m.loaded = true) ∧
    (let x : XCmd := { head := { id := 7 }, op := .copy }
     let s := event (ctx [5]) { xq := [x] }
     (s.tile 0).findX 7 = some x ∧ x.head.clear = true ∧ s.mayBeginX 0 x 100 = true ∧ x.burnishes = false) ∧
    (∀ own ∈ [0, 3],
      let x : XCmd := { head := { id := 7 }, op := .burnish, a := 0x10000 }
      let s : State := { event (mctx 0 0) { xq := [x] } with dies := [(0, { tick := 100, recipes := [(0, { tenant := own, image := [1] })] })] }
      s.mayBeginX 0 x 100 = true ∧ x.burnishes = true ∧ s.burnishBlocked 0 x = false ∧ ((s.ctx 0 x.head.ctx).layoutOf x.a).isSome = true ∧
      FMap.get? (s.die 0).recipes (x.d.toNat / 2 ^ 56 % 16) = some { tenant := own, image := [1] } ∧ decide (own = x.tenant) = decide (own = 0)) ∧
    (let x : XCmd := { head := { id := 7 }, op := .burnish }
     let s : State := { event (ctx [5]) { xq := [x] } with dies := [(0, { tick := 100 })] }
     s.mayBeginX 0 x 100 = true ∧ s.burnishBlocked 0 x = false ∧ ((s.ctx 0 x.head.ctx).layoutOf x.a).isSome = false) ∧
    (∀ op ∈ [XOp.copy, .smquery], ∀ status ∈ [0, 3],
      let x : XCmd := { head := { id := 7, st := .running, began := 90 }, op := op, td := 14, stopped := true, status := status
                        value := if op = .copy then none else some { val := 9 } }
      let s := event (ctx [5]) { xq := [x] }
      x.finished 100 = true ∧ x.status = status ∧ (s.ctx 0 0).portFree 100 (.scalar 14 { val := 9 }) = true) ∧
    (let x : XCmd := { head := { id := 7, st := .running, began := 90 }, op := .recipe, image := [1] }
     x.burnished 100 = true) ∧
    (let f : FCmd := { head := { id := 7 }, op := .send, n := 2, handled := 2 }
     ((event (ctx [5]) { fq := [f] }).tile 0).fq.find? (fun f => f.head.id == 7) = some f ∧ f.over 100 = true) ∧
    (let k : Ctx := { ctx [5] with pendingFaults := [{ cause := 0x28 }] }
     k.st = .ready ∧ k.trapcause = 0 ∧ k.farAcq = none ∧ k.preempt = none ∧ k.pendingFaults = [{ cause := 0x28 }]) ∧
    (∀ n ∈ [63, 64],
      let b : Flying := { die := 0, due := 100, tile := 0, port := 1, beat := ⟨[], []⟩, id := 7 }
      let s := event (ctx [5]) { fifos := [(1, List.replicate n ⟨[], []⟩)] } [] { State.reset with air := [b] }
      (s.air.find? fun f => f.id == 7) = some b ∧ b.due ≤ (s.die 0).tick ∧ FMap.get? s.scrubs 0 = none ∧ (s.die (dieOf 0)).fenced = false ∧
      decide (64 ≤ (FMap.getD (s.tile 0).fifos 1 []).length) = decide (n = 64)) ∧
    (∀ code ∈ [0, 1, 2], (4 :: (List.replicate 64 255 ++ List.replicate 64 0 ++ [code])).length = 130 ∧ (4 : Nat) < 10 ∧ 0 < 192 ∧
      FMap.get? (event (ctx [5])).scrubs 0 = none ∧ ((event (ctx [5])).die (dieOf 0)).fenced = false) ∧
    (let x : Tile := { xq := [{ head := { id := 7 }, op := .copy }] }
     let f : Tile := { fq := [{ head := { id := 7 }, op := .send, n := 2 }] }
     (x.findM 7).isNone = true ∧ (x.findX 7).isSome = true ∧ (f.findM 7).isNone = true ∧ (f.findX 7).isNone = true ∧
     (f.fq.find? fun f => f.head.id == 7).isSome = true ∧ (({} : Tile).fq.find? fun f => f.head.id == 7).isNone = true ∧
     (({} : Tile).findM 7).isNone = true ∧ (({} : Tile).findX 7).isNone = true) := by decide +kernel

/-- A command that is cut and one that is not, with a live sync register and an inert one; a phaser that has what is declared pending,
exactly, and less. -/
theorem test_hyp_EngineCommands_signals :
    (({ id := 7, cut := true } : CmdHead).cut = true ∧ ({ id := 7 } : CmdHead).cut = false ∧ ({ inc := 1 } : SyncReg).inc ≠ 0) ∧
    (∀ n ∈ [1, 64, 65],
      let x : Phaser := { launch := 9, pend := 64 }
      let s : State := { State.reset with phasers := [(3, x)] }
      FMap.get? s.phasers (if false then 4096 + 3 else 1024 * 0 + 3) = some x ∧ 0 < n ∧ decide (x.pend < n) = decide (n = 65)) := by decide +kernel

/-- A running matrix command, its begin 200 cycles ago. -/
def rowing (m : MCmd) (x : Tile := {}) : State :=
  { event (ctx [5]) { x with mq := [m] } with dies := [(0, { tick := 300, registered := true, dist := 0 })] }

/-- Each command in a cycle in which it has something to do: rows of a STREAM in the foot, the first and the last column; loads; WLOADW's
write and read; DRAIN's read, clear and write, into a slot, with its banks granted and without; a cleared row; an image. -/
theorem test_hyp_MatrixRows :
    let h : CmdHead := { id := 7, st := .running, began := 100 }
    let at' := fun (m : MCmd) => (rowing m).tickOf 0 == 300 && m.off 300 == 200 && ((rowing m).tile 0).findM 7 == some m
    (let m : MCmd := { head := h, op := .stream false false, a := 127, rows := 71, pipe := [{ i := 0 }, { i := 70 }] }
     at' m = true ∧ (∀ r ∈ m.pipe, m.off 300 ≤ r.i + 257) ∧ (m.pipe.map (·.i)).Nodup ∧ 0 + 130 ≤ m.off 300 ∧ 70 + 130 = m.off 300 ∧ m.rows < m.rowGoal ∧ m.rows ≤ 200) ∧
    (let m : MCmd := { head := h, op := .wload, rows := 127 }
     at' m = true ∧ m.rows < m.rowGoal ∧ m.rows ≤ 200) ∧
    (let m : MCmd := { head := h, op := .wloadw, rows := 100, pipe := [{ i := 94 }], b := 256 * 2 ^ 32, segs := [⟨0, .wstore 0, 0, 32768, 1, 0⟩] }
     at' m = true ∧ 2 * 94 + 12 ≤ m.off 300 ∧ m.rows < m.rowGoal ∧ 2 * m.rows ≤ m.off 300 ∧ m.carry.2 = [] ∧
     (rowing m).groupsFree (cutSegs m.segs m.rowRun.1 m.rowRun.2) = true) ∧
    (∀ rdw ∈ [false, true], ∀ b ∈ [2 ^ 17 + 127, 2 ^ 17 + 2 ^ 16 + 127],
      let m : MCmd := { head := h, op := .drain rdw, b := BitVec.ofNat 64 b, rows := 49, pipe := [{ i := 47, cells := [(1, false)] }], cleared := 48 }
      let every := if rdw then 4 else 2
      at' m = true ∧ (Entry.ofImage m.image).df ≤ 6 ∧ m.rows < m.rowGoal ∧ every * m.rows + 1 ≤ m.off 300 ∧ m.b.toNat / 2 ^ 17 % 2 = 1 ∧ m.cleared < m.rows ∧
      every * m.cleared + 2 ≤ m.off 300 ∧ every * 47 + (if rdw then 9 else 7) ≤ m.off 300 ∧ m.omd = decide (b / 2 ^ 16 % 2 = 1) ∧
      (m.omd = false → (rowing m).goesM 0 m (m.putBanks { i := 47, cells := [(1, false)] }) = false ∧
        (rowing m { granteds := [7], granted := (m.putBanks { i := 47, cells := [(1, false)] }).map fun n => (n, 300) }).goesM 0 m
          (m.putBanks { i := 47, cells := [(1, false)] }) = true)) ∧
    (let m : MCmd := { head := h, op := .accclr, a := 15, rows := 15 }
     at' m = true ∧ m.rows < m.rowGoal ∧ m.rows ≤ 200) ∧
    (∀ image ∈ [0, 7], ∀ busy ∈ [[], [(0, 300)]],
      let m : MCmd := { head := h, op := .fmtsel, ot := 1, a := 0 }
      let s := rowing m { scratch := ⟨if image = 0 then [] else [(0, BitVec.ofNat 8 image)], []⟩, granted := busy }
      at' m = true ∧ m.loadsEntry = true ∧ m.loaded = false ∧ (s.goesM 0 m (banksOf 0 8) || (m.head.since.isNone && s.findsBanks ((banksOf 0 8).map fun b => (0, b)))) = busy.isEmpty ∧
      bytesPoison (s.curTile.scratch.read 0 8) = false ∧ imageValid (BitVec.ofNat 64 (bytesVal ((s.tile 0).scratch.read 0 8))) = decide (image = 0)) := by
  decide +kernel

/-- Sums at the lower end: −2⁶³ stays as it is, one below it is held (Table 0.1). A row of which the rest is to be read in this cycle. -/
theorem test_hyp_MatrixRows_low :
    columnFoot { val := BitVec.ofInt 64 (-2 ^ 63 + 1) } [{ v := -1 }] true = { val := BitVec.ofInt 64 (-2 ^ 63), sat := false } ∧
    columnFoot { val := BitVec.ofInt 64 (-2 ^ 63) } [{ v := -1 }] true = { val := BitVec.ofInt 64 (-2 ^ 63 + 1), sat := true } ∧
    (let m : MCmd := { head := { id := 7, st := .running, began := 100 }, op := .wloadw, rows := 100, b := 256 * 2 ^ 32, segs := [⟨0, .wstore 0, 0, 32768, 1, 0⟩]
                       carry := (25600, List.replicate 32 (0, false)) }
     let s := rowing m
     let z : State := { s with focus := { s.focus with args := [1] } }
     z.focus.args = [1] ∧ (z.tile 0).findM 7 = some m ∧ m.carry.1 = m.b.toNat % 2 ^ 32 + m.rows * (m.b.toNat / 2 ^ 32 % 2 ^ 16) ∧ 0 < m.rowRun.2) := by
  decide +kernel

/-- A running copy command on tile 0, with the banks it may need granted in this cycle. -/
def moving (x : XCmd) (fetch : Bool) (y : Tile := {}) (s : State := .reset) : State :=
  event (ctx [5]) { y with xq := [x], fetch := if fetch then some 7 else none, beat := if fetch then none else some 7
                           granted := (List.range 32).map fun b => (b, 100) } [] s

/-- A piece of HBM on an RC page, and one of the tile's scratchpad. -/
def hbmSide (n : Nat) : Side := { va := 0, len := n, segs := [⟨0, .hbm, 0, n, 1, 0⟩] }
def nearSide (a n : Nat) : Side := { va := a, len := n, segs := [⟨a, .scratch 0, a, n, 1, 0⟩] }

/-- A fetch; an index that is read, and one that is past its span; a write of a chunk's last bytes, clean and poisoned. -/
theorem test_hyp_TransferBeats_moves :
    let h : CmdHead := { id := 7, st := .running, began := 90, steps := 1 }
    (let x : XCmd := { head := h, op := .copy, src := hbmSide 64, dst := nearSide 0 64 }
     let s := moving x true
     (s.tile 0).findM 7 = none ∧ (s.tile 0).findX 7 = some x ∧ x.moves = true ∧ (s.tile 0).beat = none ∧ (s.tile 0).fetch = some 7 ∧ x.fetches = true ∧
     s.goesX 0 7 false x.fetchPieces = true ∧ x.wantsIndex = false ∧ x.wants = some (0, 64) ∧ s.sourceBad x = 0) ∧
    (∀ index ∈ [0, 16],
      let x : XCmd := { head := h, op := .gather, src := hbmSide 4096, dst := nearSide 0 4095, list := nearSide 8192 4, d := BitVec.ofNat 64 (2 ^ 40 + 4095 * 2 ^ 16) }
      let s := moving x true { scratch := ⟨if index = 0 then [] else [(8192, 16)], []⟩ }
      x.fetches = true ∧ s.goesX 0 7 false x.fetchPieces = true ∧ x.wantsIndex = true ∧
      bytesVal (s.readSide (cutSegs x.list.segs 0 4) 0 4) = index ∧ decide (4096 * (x.d.toNat / 2 ^ 40) < index + 4095) = decide (index = 16)) ∧
    (∀ bad ∈ [false, true],
      let x : XCmd := { head := h, op := .copy, src := nearSide 0 64, dst := hbmSide 64, srcAt := 64, buf := List.replicate 64 (1, bad) }
      let s := moving x false
      (s.tile 0).beat = some 7 ∧ (s.tile 0).fetch = none ∧ x.mayPut = true ∧ s.goesX 0 7 true x.putPieces = true ∧ x.puts = some (0, 64) ∧
      x.dstAt ≤ x.span.1 ∧ firstRefused x.dst.segs 0 x.buf = (if bad then some 0 else none) ∧ s.sideBad x.dst = 0 ∧ x.dst.isRemote = false) := by
  decide +kernel

/-- The register forms of a sheet's accesses, the last of an atomic on a clean and on a poisoned value; each fabric operation with a beat that
is due; the pieces' premises; the numbers of BurnishOne. -/
theorem test_hyp_TransferBeats :
    let h : CmdHead := { id := 7, st := .running, began := 90, steps := 1 }
    (∀ op ∈ [XOp.smld, .smst, .smatom .cas], ∀ bad ∈ [false, true],
      let side : Side := { va := sheetHandle, len := 8, segs := [⟨sheetHandle, .switch 2, 5 * 0x200000, 8, 1, 0⟩] }
      let x : XCmd := { head := h, op := op, src := side, dst := side, reads := side.segs, writes := side.segs, d := BitVec.ofNat 64 (2 ^ 24 + 8) }
      let sheet : Sheet := { live := true, perm := 3, ord := 1, hasPair := true }
      let s := moving x true {} { State.reset with switches := [(2, { sheets := [(5, { sheet with data := ⟨[], if bad then [(0, ())] else []⟩ })] })] }
      (s.tile 0).findX 7 = some x ∧ x.moves = false ∧ s.waitsFor 0 7 true (x.reads ++ x.writes) = false ∧ (s.die 0).downLinks.contains 4 = false ∧
      s.sideBad side = 0 ∧ (s.sheet (s.home 2 5) 5).hasPair = true ∧
      bytesPoison ((s.sheet (s.home 2 5) 5).read 0 (sheetTweak 2 5 1) 0 8) = bad) ∧
    (∀ op ∈ [FOp.send, .recv, .relay, .addReg, .addAcc false, .addAcc true],
      let f : FCmd := { head := { id := 7, st := .running, issued := 90 }, op := op, port := 1, n := 3, beats := List.replicate 3 ⟨List.replicate 64 0, List.replicate 64 false⟩ }
      let s := event (ctx [5]) { fq := [f] }
      (s.tile 0).findX 7 = none ∧ ((s.tile 0).fq.find? fun f => f.head.id == 7) = some f ∧ f.due 100 = true ∧ (meshNeighbour 0 1).isSome = true ∧
      f.beats[0]?.isSome = true ∧ 64 * 0 / 24 ≤ 1 ∧ 1 < 64 * (0 + 1) / 24) ∧
    ((0x1F8 + 0) % 8 = 0 ∧ (List.replicate 8 ((1 : Byte), false)).length % 8 = 0) ∧
    fp32.decode 0x3F800000 = .fin false 0x800000 (-23) ∧ fp32.decode 0x7F800000 = .inf false ∧ 0x3FFF % 0x8000 ≠ 0 ∧ 0x8000 % 0x8000 = 0 := by
  decide +kernel

/-- A sum of −2⁶³ in an accumulator entry; the first unit of a BURNISH's weights, whole and one byte short. -/
theorem test_hyp_TransferBeats_low :
    (let f : FCmd := { head := { id := 7, st := .running, issued := 90 }, op := .addAcc false, port := 1, n := 1, beats := [⟨List.replicate 64 255, List.replicate 64 false⟩] }
     let s := event (ctx [5]) { fq := [f], acc := [(0, { val := BitVec.ofInt 64 (-2 ^ 63 + 1) }), (1, { val := BitVec.ofInt 64 (-2 ^ 63) })] }
     f.due 100 = true ∧ (FMap.getD (s.tile 0).acc 0 {}).val.toInt + (BitVec.ofNat 64 (ofBytes (List.replicate 8 255)) : Word).toInt = -2 ^ 63 ∧
     (match exec .engineStep s with
      | .next u => (FMap.getD (u.tile 0).acc 0 {} == { val := BitVec.ofInt 64 (-2 ^ 63) }) && (FMap.getD (u.tile 0).acc 1 {} == { val := BitVec.ofInt 64 (-2 ^ 63 + 1), sat := true })
      | _ => false) = true) ∧
    (∀ n ∈ [31, 32],
      let x : XCmd := { head := { id := 7, st := .running, began := 90 }, op := .burnish, pinned := [⟨0, .wstore 0, 0, 128, 1, 0⟩], tail := [(0, List.replicate n (1, false))] }
      x.skew = 0 ∧ min 32 (128 * (BurnishCtl.ofWord x.d).groups) = 32 ∧ State.reset.groupsFree (cutSegs x.pinned 0 32) = true ∧
      decide ((FMap.getD x.tail 0 []).length = 32) = decide (n = 32)) := by decide +kernel

/-- Each timer one past its limit; a fetch past the code; a trap whose entry is due, and three that park; a full and a free queue slot. -/
theorem test_hyp_TrapAndFaultEvents :
    (let s := event { ctx [5] with regionTimer := 0x100001 }
     (s.ctx 0 0).regionmax.toNat < (s.ctx 0 0).regionTimer ∧ (s.ctx 0 0).trapcause = 0) ∧
    (let s := event { ctx [5] with inFtr := true, ftrTimer := 0x10001 }
     (s.ctx 0 0).inFtr = true ∧ (s.ctx 0 0).ftrmax.toNat < (s.ctx 0 0).ftrTimer) ∧
    (let s := event { ctx [5] with wdog := 1, blockedFor := 65537, st := .blocked .semaphore }
     0 < (s.ctx 0 0).wdog.toNat ∧ (s.ctx 0 0).wdog.toNat * 65536 < (s.ctx 0 0).blockedFor ∧ (s.ctx 0 0).st = .blocked .semaphore ∧
     (s.ctx 0 0).pendingFaults = []) ∧
    (let k : Ctx := { ctx [5] with wdog := 1, blockedFor := 65537, st := .blocked .semaphore, pendingFaults := [{ cause := 0x28 }] }
     k.pendingFaults ≠ [] ∧ k.trapcause = 0 ∧ k.farAcq = none ∧ k.preempt = none) ∧
    (match fetch (event { ctx [5] with pcOver := true }).curTile { ctx [5] with pcOver := true } with
      | .fails ch => (match ch.kind with | .trap _ _ _ _ => true | _ => false) | _ => false) = true ∧
    (event (ctx [5]) {} [3, 5]).focus.args = [3, 5] ∧
    (∀ p ∈ [(TrapKind.precise, 0#8, 9#17), (.translation, 0, 9), (.precise, 1, 9), (.precise, 0, 0)],
      let r : TrapRecord := { kind := p.1, cause := 0x14 }
      let s := event { ctx [5] with st := .trapping, pendingTrap := some (r, 99), trapcause := p.2.1, tvec := p.2.2 }
      (s.ctx 0 0).inflight = [] ∧ (s.ctx 0 0).pendingTrap = some (r, 99) ∧ 99 < s.tickOf 0 ∧ (s.die (dieOf 0)).waiting = [] ∧ s.nextId ≠ 0) ∧
    (let e : QEntry := ⟨3, 1, []⟩
     let s : State := { State.reset with dies := [(0, { waiting := [e] })] }
     (s.die s.focus.die).waiting = [e] ∧ (s.die s.focus.die).retestAt ≤ (s.die s.focus.die).tick ∧ s.slotDone 0 = false) := by decide +kernel

/-- A free queue slot: key slot 0 is live and bit 0 of the last byte of slot 0 of die 0's fault queue is set. -/
theorem test_hyp_TrapAndFaultEvents_done :
    let e : QEntry := ⟨3, 1, []⟩
    let s : State := { State.reset with dies := [(0, { waiting := [e] })], keys := [(0, { tenant := 0, share := true, pair := 0 })] }
    (s.die s.focus.die).waiting = [e] ∧ (s.die s.focus.die).retestAt ≤ (s.die s.focus.die).tick ∧ s.slotDone 0 = true := by decide +kernel

/-- A context whose next bundle opens a region (dictionary entry 0), with what else it is to have. -/
def atRgn (k : Ctx → Ctx) (args : List Nat := []) (x : Tile := {}) : State := event (k { ctx [5] with dictlen := 1 }) { x with dict := [(0, 1)] } args

/-- Each event of a pre-emption: the request, its tick, the lazy form in its four cases, the urgent form in its three, saving, restoring,
the end of a context and its loss. -/
theorem test_hyp_PreemptionEvents :
    let lazy : Preempt := { urgent := false, effectTick := 100, live := true }
    let urgent : Preempt := { urgent := true, effectTick := 100, live := true }
    let k := fun (s : State) => s.ctx 0 0
    let free := fun (s : State) => (s.tile 0).ctxs.all (fun e => !e.2.inFtr) && (k s).lockLeft.isNone && (k s).farAcq.isNone
    (let s := atRgn id [0, 100]
     (s.tile 0).live 0 = true ∧ (k s).st = .ready ∧ (k s).preempt = none ∧ s.focus.args = [0, 100]) ∧
    (let s := atRgn fun k => { k with preempt := some { urgent := false, effectTick := 100 } }
     (k s).preempt = some { urgent := false, effectTick := 100 } ∧ 100 ≤ s.tickOf 0 ∧ free s = true) ∧
    (let s := atRgn fun k => { k with preempt := some lazy }
     (k s).preempt = some lazy ∧ (k s).st = .ready ∧ free s = true ∧ s.atRegion 0 0 = true ∧ s.idleNow 0 0 = true) ∧
    (let s := atRgn (fun k => { k with preempt := some lazy }) [] { mq := [{ head := { id := 7 }, op := .wload }] }
     free s = true ∧ s.atRegion 0 0 = true ∧ s.idleNow 0 0 = false) ∧
    (let s := atRgn fun k => { k with preempt := some lazy, dictlen := 0 }
     free s = true ∧ s.atRegion 0 0 = false) ∧
    (let s := atRgn fun k => { k with preempt := some lazy, st := .blocked .semaphore }
     free s = true ∧ (k s).st = .blocked .semaphore ∧ (k s).nonRepeatable = false ∧ lazy.atRgn = false) ∧
    (let s := atRgn fun k => { k with preempt := some { urgent with rolling := true } }
     (k s).preempt = some { urgent with rolling := true } ∧ (k s).st = .ready ∧ s.idleNow 0 0 = true) ∧
    (∀ nr ∈ [true, false],
      let s := atRgn fun k => { k with preempt := some urgent, nonRepeatable := nr }
      (k s).preempt = some urgent ∧ urgent.rolling = false ∧ (k s).nonRepeatable = nr) ∧
    (let s := atRgn fun k => { k with st := .saving }
     (s.tile 0).live 0 = true ∧ (k s).st = .saving) ∧
    (let v : SavedCtx := { ctx := { ctx [5] with st := .saved }, num := 0, tile := 0, back := 0, owner := 7 }
     let s : State := { State.reset with saved := [v], keys := [(0, { tenant := 0, share := true, pair := 0 })], focus := { id := 7 } }
     (s.saved.find? fun v => v.owner == s.focus.id) = some v ∧ v.ctx.st ≠ .ending ∧ v.parked = false ∧ (s.die (dieOf v.back)).fenced = false ∧
     s.leaving v.back = false ∧ (FMap.get? s.keys v.keySlot).isSome = true ∧ s.pairOf v.keySlot = v.pair ∧ (s.tile v.back).freeNumbers v.ctx.valloc.toNat ≠ []) ∧
    (let s := atRgn fun k => { k with st := .ending }
     (k s).st = .ending ∧ (k s).inflight = [] ∧ s.idleOf 0 0 = true ∧ (s.tile 0).live 0 = true) := by decide +kernel

/-- A saved context with a pinned region, one unit of whose image is upset. -/
theorem test_hyp_PreemptionEvents_pins :
    let v : SavedCtx := { ctx := { ctx [5] with st := .saved }, num := 0, tile := 0, back := 0, owner := 7, pins := [3] }
    let at' := 0x5FF0000000 + 0x18000 + 0x4980 * 3
    let s : State := { State.reset with saved := [v], keys := [(0, { tenant := 0, share := true, pair := 0 })], focus := { id := 7 }, hbm := ⟨[], [(at', ())]⟩ }
    (s.saved.find? fun v => v.owner == s.focus.id) = some v ∧ 3 ∈ v.pins ∧ (s.tile v.back).freeNumbers v.ctx.valloc.toNat ≠ [] ∧
    s.hbm.poisonAt at' = true ∧ s.hbm.poisonAt (at' + 64) = false := by decide +kernel

/-- A launch record of tenant 1 on die 0, with its image at 0 of HBM and the fields listed. -/
def record (fields : List (Nat × Nat)) : BitVec 512 := BitVec.ofNat 512 (word ([(256, 1), (376, 1)] ++ fields))

/-- Tenant 1 may read the first 64 KiB of HBM through the hub's range entry 0. There stands the smallest image: the magic number, version
1, one halfword of code, VALLOC 8; and after it the bytes listed. -/
def hubState (bytes : List Host.Cell) (posted : List Posted) (checked : Bool) : State :=
  { State.reset with
    hbm := ⟨[(0, 0x31), (1, 0x4B), (2, 0x44), (3, 0x57), (4, 1), (8, 1), (16, 8)] ++ bytes, []⟩
    hbmPair := (List.range 16).map fun u => (u, 0)
    keys := [(0, { tenant := 1, share := false, pair := 0 })]
    descs := [(1, [1])]
    hubRanges := [(0, { w0 := BitVec.ofNat 64 (1 + 1 * 2 ^ 4 + 3 * 2 ^ 19), base := 0, limit := 0xFFFF, disp := 0 })]
    lsems := [(2, { tenant := 1, count := 0, err := true }), (3, { tenant := 9 })]
    queues := [(0, { recs := posted, checked := checked })] }

/-- Posting to a queue of 255 records and of 256; the four verdicts on a head; a head that fires without an image, with a bad loop table, with
a gathering too large, and well. -/
theorem test_hyp_LaunchEvents :
    (∀ n ∈ [255, 256],
      let s : State := { hubState [] (List.replicate n { record := 0, tenant := 1 }) false with
        pairs := [(5, ⟨1, 1, 0⟩)], focus := { args := 5 :: List.replicate 64 0 } }
      (FMap.get? s.pairs 5).map (fun p => (p.cls, p.queue)) = some (1, 0) ∧ (List.replicate 64 0).length = 64 ∧ s.boot.good = true ∧
      decide (256 ≤ (s.queue 0).recs.length) = decide (n = 256)) ∧
    (let p : Posted := { record := record [(268, 1)], tenant := 1 }
     let s := hubState [] [p] false
     (s.queue 0).recs = [p] ∧ (s.queue 0).checked = false ∧ s.badRec 0 p = true) ∧
    (let p : Posted := { record := record [(308, 1), (272, 3)], tenant := 1 }
     let s := hubState [] [p] false
     s.badRec 0 p = false ∧ s.foreignSem (Rec.ofBits p.record) = true) ∧
    (let p : Posted := { record := record [(308, 1), (272, 2)], tenant := 1 }
     let s := hubState [] [p] true
     (s.queue 0).checked = true ∧ s.waitError (Rec.ofBits p.record) = true) ∧
    (let p : Posted := { record := record [], tenant := 1 }
     let s := hubState [] [p] false
     s.badRec 0 p = false ∧ s.foreignSem (Rec.ofBits p.record) = false ∧ s.waitError (Rec.ofBits p.record) = false) ∧
    (let p : Posted := { record := record [(0, 1)], tenant := 1 }
     let s := hubState [] [p] true
     s.firedAt ≠ some (s.die 4).tick ∧ s.boot.good = true ∧ s.nextFire = some 0 ∧ (s.queue 0).recs = [p] ∧ (s.readImage 1 1#64).isNone = true) ∧
    (let p : Posted := { record := record [], tenant := 1 }
     let tab := fun (bytes : List Host.Cell) =>
       (((hubState bytes [p] true).readImage 1 0#64).bind fun i => (hubState bytes [p] true).loopTable (Rec.ofBits p.record) i.2).map fun t =>
         (parseLoops t).map fun l => gatheringFits l (Rec.ofBits p.record).dieMask
     (hubState [] [p] true).nextFire = some 0 ∧
     tab [(832, 1)] = some none ∧ tab [(832, 49), (836, 1), (838, 1)] = some (some false) ∧ tab [(832, 48), (836, 1), (838, 1)] = some (some true)) := by
  decide +kernel

/-- A head that waits on semaphore 3 when this takes its error bit; contexts that may go to another die's tile, and that may not: of a launch
of that die, of one die's mask, of instances over dies of one member and of two, with a phaser of their die. -/
theorem test_hyp_LaunchEvents_sides :
    (let p : Posted := { record := record [(308, 1), (272, 3)], tenant := 1 }
     let s := hubState [] [p] true
     (s.queue 0).recs = [p] ∧ s.waitError (Rec.ofBits p.record) = false ∧ (s.errLsem 3 { tenant := 1 }).waitError (Rec.ofBits p.record) = true) ∧
    let s := fun (own : List (Nat × PhaserSlot)) (fields : List (Nat × Nat)) (split : Bool) (n : Nat) =>
      ({ State.reset with
         tiles := [(0, { ctxs := [(0, { ctx [5] with launch := 7, phslots := own })] })]
         launches := [(7, { record := record fields, queue := 0, tenant := 1, image := [], members := n
                            loops := if split then [(1, { kind := 3, count := 4, step := 1 })] else [] })] } : State)
    dieOf 47 = 0 ∧ dieOf 48 = 1 ∧ (s [] [] true 2).mayMove 0 47 = true ∧ (s [] [(377, 1)] false 2).mayMove 0 48 = true ∧
    (s [] [] false 1).mayMove 0 48 = false ∧ (s [] [(377, 1)] true 1).mayMove 0 48 = true ∧ (s [] [(377, 1)] true 2).mayMove 0 48 = false ∧
    (s [(0, { phaser := { die := 0 } })] [(377, 1)] false 1).mayMove 0 48 = false := by decide +kernel

/-- The tree of beacons: a die that hears die 1, one whose parent is silent, a key die that is fenced; and each link at the ends of its numbers. -/
theorem test_hyp_RegistrationAndLinkEvents :
    (let s : State := { State.reset with focus := { die := 0 } }
     (s.die 0).tick % 1024 = 0 ∧ (s.die 0).fenced = false ∧ s.edge 0 1 = true ∧ s.keyDie = some 0) ∧
    (let b : Beacon := { dest := 1, link := 0, due := 0, lb := 12, time := 0, dist := 0, reg := true, keyId := 0 }
     let s : State := { State.reset with beacons := [b], focus := { die := 1 }, dies := [(1, { parent := some 0 })] }
     s.focus.args = [] ∧ (s.beacons.find? fun b => b.dest == 1 && b.due ≤ (s.die 1).tick) = some b ∧ (s.die 1).fenced = false ∧ s.edge 1 0 = true ∧
     s.keyDie ≠ some 1 ∧ (s.die 1).registered = false ∧ (s.die 1).parent = some 0 ∧
     let z := ({ s with dies := [(1, { parent := some 0, registered := true, keyId := 9 })] } : State)
     (z.die 1).registered = true ∧ b.reg = true ∧ b.keyId ≠ (if z.isKey 1 then 4 * z.nodeId + 1 else (z.die 1).keyId)) ∧
    (let s : State := { State.reset with focus := { die := 4, args := [5, 9, 255, 1, 0] }, dies := [(4, { linklat := [(5, 12)] })], farPorts := 0x20, regPorts := 0x20 }
     s.focus.args = [5, 9, 255, 1, 0] ∧ (255 : Nat) ≤ 255 ∧ s.edge 4 10 = true ∧ s.loopback.getLsbD 5 = false) ∧
    (let s : State := { State.reset with focus := { die := 1 }, dies := [(1, { tick := 4096, parent := some 0, heard := [(0, { heardAt := 0 })] })] }
     s.keyDie ≠ some 1 ∧ (s.die 1).fenced = false ∧ s.parentSilent 1 = true) ∧
    (let s : State := { State.reset with dies := [(0, { fenced := true })] }
     s.keyDie = some 0 ∧ (s.die 0).fenced = true ∧ s.regPorts = 0 ∧ s.lowestLive = some 1 ∧
     let z := ({ s with regPorts := 3, loopback := 3 } : State)
     (∀ p, p < 6 → z.regPorts.getLsbD p = true → z.loopback.getLsbD p = true) ∧ z.lowestLive = some 1) ∧
    (let s : State := { State.reset with power := { held := 5 } }
     s.focus.args = [] ∧ s.keyDie = some 0 ∧ (s.die 0).fenced = false ∧ s.power.held ≠ 0 ∧ (s.die 0).pendingStretch = none) ∧
    (∀ l ∈ [0, 5, 6, 9, 10, 13, 14, 21], ({ State.reset with focus := { args := [l] } } : State).focus.args = [l]) ∧
    ((∀ lat ∈ [120, 400], 120 ≤ lat ∧ lat ≤ 400) ∧ State.reset.hubLat 5 = 0 ∧ 0 < 65535 ∧ (5 : Nat) < 6) ∧
    (∀ n ∈ [14, 15],
      let s : State := { State.reset with dies := [(4, { linklat := [(5, 12)] })], replays := [(5, n)], focus := { args := [5, 0] } }
      s.hubLat 5 ≠ 0 ∧ decide (15 ≤ FMap.getD s.replays 5 0) = decide (n = 15)) ∧
    (let s : State := { State.reset with dies := [(4, { tick := 32768 })] }
     (s.die 4).tick % 32768 = 0 ∧ (s.die 4).tick ≠ 0) ∧
    (let s : State := { State.reset with dies := [(0, { tick := 200, clockTo := some (1, 200) })] }
     (s.die s.focus.die).clockTo = some (1, 200) ∧ 200 ≤ (s.die 0).tick ∧ s.clockGuarded 0 = false ∧
     ({ s with tiles := [(0, { ctxs := [(0, { ctx [5] with inFtr := true })] })] } : State).clockGuarded 0 = true) := by decide +kernel

/-- Each event of the package at the ends of what its arguments may be. -/
theorem test_hyp_PackageEvents :
    (let s : State := { State.reset with focus := { die := 3 }, power := { sensors := [0, 0, 0, 1050] } }
     3 < 4 ∧ (s.die 3).fenced = false ∧ s.fenceDue 3 = true) ∧
    (let x : XCmd := { head := { id := 7, st := .running }, op := .copy, src := { segs := [⟨0, .remote 1 0, 0, 64, 1, 0⟩] }, asked := some 0 }
     let s : State := { event (ctx [5]) { xq := [x] } with dies := [(0, { tick := 16777216 })] }
     (s.tile 0).findX s.focus.id = some x ∧ x.unanswered (s.tickOf 0) = true) ∧
    (let s : State := { State.reset with keys := [(0, { tenant := 1, share := false, pair := 0 })] }
     s.servedAt 2 0 0 0 64 = none ∧ (s.servedAt 1 0 0 (0x6000000000 - 64) 64).isSome = true ∧ (s.servedAt 1 0 0 0 0).isSome = true) ∧
    ((State.reset.switch 7).lost = false ∧ (State.reset.sheet 7 0).live = false ∧ (State.reset.sheet 7 0).gen = 1) ∧
    (({ State.reset with switches := [(0, { failover := true })] } : State).switch 0).failover = true ∧
    (7 < 8 ∧ 262143 < 262144 ∧ 0 < 65535 ∧ 65535 ≤ 65535) ∧
    (64 * (0x180000000 - 1) < 0x6000000000 ∧ 32 * (0x6000000 - 1) < 0xC0000000 ∧ (State.reset.die 3).fenced = false) ∧
    (let f : Flying := { die := 0, due := 9, tile := 0, port := 4, beat := ⟨List.replicate 64 0, List.replicate 64 false⟩, id := 7 }
     let s : State := { State.reset with air := [f], focus := { id := 7 } }
     s.air = [f] ∧ f.id = s.focus.id ∧ 4 ≤ f.port ∧ f.beat.poison.length = 64) ∧
    (let s : State := { event (ctx [5]) with switches := [(2, { sheets := [(5, { live := true, gen := 65535 })] })] }
     (s.sheet 2 5).live = true ∧ (s.sheet 2 5).gen.toNat = 65535 ∧ (s.switch 2).lost = false ∧ 0x1FFFFF + 1 ≤ 0x200000 ∧ (s.tile 0).live 0 = true ∧
     0x7FFFF < 0x80000 ∧ (s.die (dieOf 0)).fenced = false) ∧
    ({ State.reset with boot := { held := true } } : State).boot.held = true ∧
    (let s : State := { hubState [] [] false with pairs := [(5, ⟨1, 2, 0⟩)] }
     s.rdmaPlace 9 0 64 false = none ∧ (s.rdmaPlace 5 0xFFC0 64 false).isSome = true ∧ (s.rdmaPlace 5 0 64 true).isSome = true ∧
     (s.rdmaPlace 5 0 0 false).isSome = true) := by
  decide +kernel

/-- A request for two lines of HBM at the hub's turn: the first line and the last. -/
theorem test_hyp_PackageEvents_served : ∀ done ∈ [0, 64],
    let r : Inbound := { id := 9, node := 3, segs := [⟨0, .hbm, 0, 128, 1, 0⟩], write := false, done := done }
    let s : State := { State.reset with inbound := [r], focus := { id := 9 }, turn := 4 }
    s.focus.args = [] ∧ (s.inbound.find? fun r => r.id == 9) = some r ∧ s.inboundGoes r = true ∧
    (if done = 0 then r.done + (s.inboundPiece r).len < segsLen r.segs else segsLen r.segs ≤ r.done + (s.inboundPiece r).len) := by
  intro done hd
  simp only [List.mem_cons, List.not_mem_nil, or_false] at hd
  obtain rfl | rfl := hd <;> simp only [State.inboundGoes, State.inboundPiece] <;>
    generalize State.maybe _ 4 _ = m <;> cases m <;> decide +kernel

/-- A management message on pair 0: its operation and its arguments. -/
def message (opc : Nat) (args : List Nat) (s : State := .reset) : State := { s with focus := { args := 0 :: opc :: List.replicate 7 0 ++ args } }

/-- Each message at the ends of its arguments, one with an argument too many and one of no operation; the replies that wait. The pair that
an envelope unwraps to is a free value, and so is whether it does. -/
theorem test_hyp_ManagementMessages :
    let key : State := { State.reset with keys := [(1023, { tenant := 4095, share := true, pair := 0 })] }
    let comes := fun (s : State) (opc n : Nat) =>
      let m := Message.ofArgs s.focus.args
      m.opc == opc && m.zero && (m.args.drop n).all (· == 0) && s.fromManagement m
    State.reset.boot.good = true ∧
    (∃ x ∈ (Message.ofArgs (message 12 [1]).focus.args).args.drop 0, x ≠ 0) ∧ (Message.ofArgs (message 18 []).focus.args).opc = 18 ∧
    (comes (message 1 [4095, 0, 0, 0, 0, 0]) 1 6 = true ∧ descOk [0, 0, 0, 0, 0] = true ∧ State.reset.tenantHolds 4095 = false ∧ key.tenantHolds 4095 = true) ∧
    comes (message 2 [4, 63, 2 ^ 64 - 1, 0, 0, 0]) 2 6 = true ∧ (comes (message 3 [4095, 3, 2 ^ 39, 0]) 3 4 = true ∧ 2 ^ 39 + 0 ≤ 2 ^ 39) ∧ comes (message 4 [3, 4095]) 4 2 = true ∧
    (comes (message 5 [1023, 4095, 1, 0]) 5 4 = true ∧ (FMap.get? key.keys 1023).isSome = true ∧ FMap.get? State.reset.keys 1023 = none) ∧
    comes (message 6 [1023]) 6 1 = true ∧ comes (message 7 [4095, 7, 9]) 7 3 = true ∧ comes (message 8 [4095, 4095, 3, 127]) 8 4 = true ∧ comes (message 8 [4095, 0, 0, 127]) 8 4 = true ∧
    comes (message 9 [4095, 4095, 2 ^ 32 - 1]) 9 3 = true ∧ comes (message 10 [127]) 10 1 = true ∧
    (comes (message 11 [2 ^ 256 - 1]) 11 1 = true ∧ State.reset.boot.burnt ≠ 1024 ∧ ({ burnt := 1024 } : Boot).burnt = 1024) ∧
    comes (message 12 []) 12 0 = true ∧ comes (message 13 [600]) 13 1 = true ∧ comes (message 13 [2400]) 13 1 = true ∧ comes (message 14 [4, 9]) 14 2 = true ∧
    comes (message 15 (0 :: List.replicate 48 255)) 15 49 = true ∧ comes (message 16 []) 16 0 = true ∧ comes (message 17 [63, 3]) 17 2 = true ∧ comes (message 17 [63, 0xFF]) 17 2 = true ∧
    (let r : Running := { id := 7, opc := 3, tag := [], qp := 0, args := [0], since := 0 }
     let s : State := { State.reset with running := [r], focus := { id := 7 } }
     (s.running.find? fun r => r.id == s.focus.id && (r.opc == 2 || r.opc == 3)) = some r ∧ s.rangeIdle 0 (0, 0, 0, 0) = true) ∧
    (let r : Running := { id := 7, opc := 6, tag := [], qp := 0, args := [1023], since := 0 }
     let s : State := { State.reset with running := [r], focus := { id := 7 } }
     (s.running.find? fun r => r.id == s.focus.id && r.opc == 6) = some r ∧ s.slotUsed 1023 = false) ∧
    (let r : Running := { id := 7, opc := 0x11, tag := [], qp := 0, args := [0, 0], since := 0 }
     let all : State := { State.reset with running := [r], focus := { id := 7 }, dies := (List.range 5).map fun d => (d, { registered := true }) }
     let late : State := { State.reset with running := [r], focus := { id := 7 }, dies := [(4, { tick := 16777216 })] }
     (all.running.find? fun r => r.id == all.focus.id && r.opc == 0x11) = some r ∧ all.allRegistered = true ∧ late.allRegistered = false ∧
     r.since + 16777216 ≤ (late.die 4).tick) := by decide +kernel

/-- A launch of one member of the smallest image, tenant 1, on die 0. -/
def launch1 : Launch :=
  { record := record [], queue := 0, tenant := 1, image := (hubState [] [] false).hbm.read 0 960, insts := [(5, { index := 0, toPlace := [0] })] }

/-- Tile 0 is tenant 1's and empty; the other tiles of die 0 are in scrub. -/
def placing : State :=
  { State.reset with
    tiles := [(0, { owner := some 1 })], scrubs := (List.range 47).map fun i => (i + 1, (0, 1)), launches := [(7, launch1)]
    focus := { id := 7, args := [5] } }

/-- On an empty store a place is found whatever the start. -/
theorem findPlace_nil (len cap a : Nat) (h : len ≤ cap) : findPlace [] len cap a = some (a % (cap - len + 1)) := by
  have := Nat.mod_lt a (show 0 < cap - len + 1 by omega)
  have h' : ¬cap < a % (cap - len + 1) + len := by omega
  simp [findPlace, findSpace, h']

/-- The member goes to tile 0 whatever the free choice is. -/
theorem test_hyp_LaunchEvents_place (n : Nat) :
    placing.launch placing.focus.id = some launch1 ∧ FMap.get? launch1.insts 5 = some { index := 0, toPlace := [0] } ∧ launch1.aborted = false ∧
    (∀ e ∈ placing.launches, e.1 < 7 → launch1.queue / 16 ≤ e.2.queue / 16 → e.2.unplaced = false) ∧
    let ts := placing.targets launch1 5 { index := 0, toPlace := [0] } n
    ∃ f, ts[n / 8 % max 1 ts.length]? = some 0 ∧ placing.fit launch1 0 n = some f := by
  have fits : ∃ f, placing.fit launch1 0 n = some f := by
    have hk : launch1.kernel = { codeLen := 1, dictLen := 0, semCnt := 0, valloc := 8, dictAt := 960, dataAt := 960, dataLen := 0, secs := [] } := by
      decide +kernel
    have ho : placing.ctxsOn 0 = [] := by decide +kernel
    have hn : (placing.tile 0).freeNumbers 8 = [0, 1, 2, 3] := by decide +kernel
    have hw : (placing.tile 0).owner = some launch1.tenant := by decide +kernel
    have hi : ∃ c, [0, 1, 2, 3][n % 4 % max 1 4]? = some c := ⟨_, List.getElem?_eq_getElem (by simp; omega)⟩
    obtain ⟨c, hc⟩ := hi
    simp only [State.fit, hk, ho, hn, hw, List.map_nil, List.find?_nil, findPlace_nil _ _ _ (show 1 ≤ 131072 by decide),
      findPlace_nil _ _ _ (show 0 ≤ 8192 by decide), findPlace_nil _ _ _ (show 0 ≤ 256 by decide)]
    simp only [List.length_cons, List.length_nil] at hc ⊢
    rw [hc]
    exact ⟨_, rfl⟩
  obtain ⟨f, hf⟩ := fits
  have ht : placing.targets launch1 5 { index := 0, toPlace := [0] } n = [0] := by
    have h0 : ∀ t, t ∈ List.range 192 → (placing.openTile launch1 { index := 0, toPlace := [0] } t && !((FMap.getD placing.places 5 []).map (·.2)).contains t) =
        decide (t = 0) := by decide +kernel
    unfold State.targets
    rw [List.filter_congr (q := fun t => decide (t = 0)) fun t h => ?_]
    · decide +kernel
    · rw [h0 t h]
      by_cases h' : t = 0
      · subst h'
        simp [hf]
      · simp [h']
  refine ⟨by decide +kernel, by decide +kernel, by decide +kernel, by decide +kernel, f, ?_, hf⟩
  rw [ht]
  simp [Nat.mod_one]

/-- The launch's one instance; and the last index of a die's range, after which new indices are handed out, or indices that another die lost,
or none are left, with room for its members, whatever the free choice is. -/
theorem test_hyp_LaunchEvents_start (n : Nat) :
    let y : Launch := { launch1 with loops := [(1, { kind := 3, count := 4, step := 1 })], indices := 4, handed := 1, ranges := [(0, [0])] }
    (placing.launch 7 = some launch1 ∧ launch1.aborted = false ∧ placing.inTurn 7 launch1 = true ∧ launch1.overDies = false ∧ launch1.handed = 0) ∧
    y.overDies = true ∧ bitAt y.dieMask 0 = true ∧ (placing.die 0).fenced = false ∧ FMap.getD y.ranges 0 [] = [0] ∧ y.again = [] ∧
    ({ y with again := [2] } : Launch).again ≠ [] ∧
    y.members ≤ (State.reset.targets y 0 { index := 0, die := some 0 } n).length := by
  refine ⟨by decide +kernel, by decide +kernel, by decide +kernel, by decide +kernel, by decide +kernel, rfl, by decide, ?_⟩
  have h : (0 : Nat) ∈ State.reset.targets { launch1 with loops := [(1, { kind := 3, count := 4, step := 1 })], indices := 4, handed := 1, ranges := [(0, [0])] } 0 { index := 0, die := some 0 } n := by
    refine List.mem_filter.2 ⟨by decide, ?_⟩
    rw [show ((State.reset.tile 0).owner != some launch1.tenant && State.reset.scrubbable 0) = true by decide +kernel, Bool.or_true, Bool.and_true]
    decide +kernel
  exact List.length_pos_of_mem h

/-- A scrub that is over; a tile that may move to another of its die; a move that may end; no fenced die to run an election for. -/
theorem test_hyp_LaunchEvents_tiles :
    (let s : State := { State.reset with scrubs := [(0, (0, 3))] }
     FMap.get? s.scrubs s.focus.tile = some (0, 3) ∧ 0 ≤ s.tickOf 0) ∧
    (let s : State := { placing with tiles := [(0, { owner := some 1, ctxs := [(0, { ctx [5] with launch := 7 })] }), (1, { owner := some 1 })], scrubs := []
                                     focus := { args := [1] } }
     s.moving = none ∧ s.focus.args = [1] ∧ s.mayCompact 0 1 = true) ∧
    (let s : State := { State.reset with moving := some (0, 1) }
     (0 : Nat) ≠ 1 ∧ (s.die (dieOf 0)).fenced = false ∧ (s.die (dieOf 1)).fenced = false ∧ s.tileQuiet 0 = true ∧ s.mayMove 0 1 = true) ∧
    (let s : State := { State.reset with moving := some (0, 48), saved := [{ ctx := { ctx [5] with phslots := [(0, { phaser := { num := 3 } })] }, num := 0, tile := 0, back := 0, owner := 7 }] }
     s.tileQuiet 0 = true ∧ s.mayMove 0 48 = false) ∧
    ∀ e ∈ State.reset.launches, State.reset.lostInsts e.2 = [] ∧ State.reset.lostRanges e.2 = [] := by decide +kernel

/-! ### The whole: hypotheses -/

/-- A context alone on its tile, whose next bundle is dictionary entry 0; it is at the tile's turn in the cycle. -/
def stepping (w : Nat) : State :=
  { State.reset with
    tiles := [(0, { dict := [(0, BitVec.ofNat 384 w)], ctxs := [(0, { ctx [5, 3] with dictlen := 1 })] })]
    stage := .issue 0 }

/-- A NOP bundle fetched and about to run, and a NOP about to be executed. -/
theorem test_hyp_NopSlots :
    let s := stepping 0
    let z := state (ctx [5, 3])
    (match fetch (s.tile 0) (s.ctx 0 0) with | .bundle w _ _ => w == 0 | _ => false) = true ∧
    (match s.attempt 0 0 with | .run is _ => (s.open is).fenceFails.isEmpty | _ => false) = true ∧ (s.ctx 0 0).overdue false = none ∧ goes z [] = true ∧
    (∀ k ∈ [128, 64, 256, 32, 16], k % k = 0 ∧ k ≠ 0) := by decide +kernel

/-- A region opened with nothing exposed, with a result in flight, with a remote value past its nominal landing that holds its register; and
among other slots. -/
theorem test_hyp_RegionHeader :
    let s := fun (ls : List Landing) => state { ctx [5, 3] with inflight := ls }
    let l : Landing := { id := 7, due := 9, dest := .scalar 3 {} }
    let late : Landing := { id := 7, due := 0, dest := .scalar 9 {}, waits := true, nominal := some 0 }
    let exposed := fun (z : State) => z.cur.inflight.any fun l => l.dest.key.isSome && match l.nominal with | some n => decide (z.now < n) | none => !l.free
    (∀ ls ∈ [[], [l], [late]], goes (s ls) [] = true ∧ exposed (s ls) = decide (ls = [l]) ∧ (s ls).cur.lockLeft = none ∧ (s ls).cur.inFtr = false ∧
      ((s ls).cur.heldAt (s ls).now ≠ [] ↔ ls = [late])) ∧
    ((s [l]).modIssue fun i => { i with mode := .judge }).issue.mode = .judge ∧ (Header.ofWord 1).rgn = true := by decide +kernel

/-- The bundle ADD s3 = s1 + s2 (header: P0 names s1, P1 s2): header bits 22 to 16 hold 65, bits 29 to 23 hold 66; slot S0 from bit 64 on. -/
def addBundle : Nat := word [(16, 65), (23, 66), (64, 0x01 + 3 * 2 ^ 7 + 1 * 2 ^ 16)]

theorem test_hyp_StepRunsDecoded :
    let s := stepping addBundle
    let u := (s.survey 0).1
    let ready := (s.survey 0).2
    let x := u.tile 0
    let k := x.ctx 0
    s.agenda = [] ∧ s.stage = .issue 0 ∧ s.nextTile 0 = some 0 ∧
    (x.exclusive.isNone && x.quantumOver (u.tickOf 0) ready (u.opensRegion 0 x.lastCtx)) = false ∧ x.select (u.tickOf 0) ready = some 0 ∧
    x.live 0 = true ∧ k.stands = true ∧ k.pendingFaults = [] ∧ k.pendingStep = false ∧ k.inFtr = false ∧
    (match fetch x k with | .bundle w _ lit => w == addBundle && !lit | _ => false) = true ∧ addBundle % 2 = 0 ∧ k.preempt = none ∧
    k.regionTimer ≤ k.regionmax.toNat ∧ ((decodeBundle addBundle).2).isEmpty = true ∧
    ((decodeBundle addBundle).1.filter fun o => !isNop o.instr).map (·.instr) = [.add s3] ∧
    (Header.ofWord (addBundle % 2 ^ 64)).rgn = false ∧ (Header.ofWord (addBundle % 2 ^ 64)).blk = false := by decide +kernel

/-- An event waiting in the agenda. -/
theorem test_hyp_StepRunsDecoded_event :
    ({ State.reset with agenda := [⟨.quantumExpiry, { tile := 3 }⟩] } : State).agenda = [⟨.quantumExpiry, { tile := 3 }⟩] := by decide +kernel

/-- Both ends of the round trip: the largest displacement and the largest word of a form. -/
theorem test_hyp_EncodingsRoundTrip :
    let f : CJump := { disp := 0xFFFFF }
    (Instr.br f).wf = true ∧ (encode (.br f)).isSome = true ∧ 0xFF1204 < 2 ^ SlotKind.f.width ∧ (decodeSlot .f 0xFF1204).toOption.isSome = true := by
  decide +kernel

theorem test_hyp_MemoryStaysCanonical : State.reset.memoriesWf = true := by decide +kernel

/-! ### One step -/

/-- 02 R25, 05 R118: the cycle in which the bundle ADD s3 = s1 + s2 issues puts 5 + 3 in flight for s3, to land in the next cycle, and goes on. -/
theorem test_step_add :
    (match step (stepping addBundle) with
      | .next t => (t.ctx 0 0).inflight.map (fun l => (l.due, l.dest)) == [(1, .scalar 3 { val := 8 })] && (t.ctx 0 0).pc == 1#17
      | _ => false) = true := by decide +kernel

/-- What an operation puts in flight from a state: cycle, destination, flags. -/
def flights (o : Host.Outcome State Fault Refusal) : List (Nat × Dest × Flags) :=
  match o with
  | .next t => t.cur.inflight.map fun l => (l.due, l.dest, l.flags)
  | _ => []

/-- What a memory, a register or a context holds after an operation. -/
def after (o : Host.Outcome State Fault Refusal) (p : State → Bool) : Bool :=
  match o with
  | .next t => p t
  | _ => false

/-- 05 Table 5.2: −7 / 2 = −3 towards zero, in 24 cycles; a division by zero gives −1. -/
theorem test_div : flights (exec (.divI s3) (state (ctx [-7, 2]))) = [(24, .scalar 3 { val := -3 }, 0)] ∧
    flights (exec (.divI s3) (state (ctx [-7, 0]))) = [(24, .scalar 3 { val := -1 }, 0)] := by decide +kernel

/-- 05 R124: 7FFF…F + 1 clamps and raises SAT. -/
theorem test_adds : flights (exec (.addsI s3) (state (ctx [0x7FFFFFFFFFFFFFFF, 1]))) =
    [(1, .scalar 3 { val := 0x7FFFFFFFFFFFFFFF }, flSAT)] := by decide +kernel

/-- 05 R115: a result for s0 is in flight and is discarded. -/
theorem test_zero_register : ((Dest.scalar 0 { val := 5 }).land (ctx [])).sreg 0 = {} := by decide +kernel

/-- 09 R230: a byte of 80h is sign-extended; a halfword is little-endian. -/
theorem test_load : flights (exec (.ldI8 l3) (state (ctx [4]) { scratch := ⟨[(4, 0x80), (5, 1)], []⟩ })) =
      [(4, .scalar 3 { val := 0xFFFFFFFFFFFFFF80 }, 0)] ∧
    flights (exec (.ldN16 l3) (state (ctx [4]) { scratch := ⟨[(4, 0x80), (5, 1)], []⟩ })) = [(4, .scalar 3 { val := 0x180 }, 0)] := by decide +kernel

/-- 09 R230: the low four bytes, least significant first. -/
theorem test_store : after (exec (.st32 { l3 with t := 0 }) (state (ctx [8, 0x1122334455667788])))
    (fun t => (t.tile 0).scratch == ⟨[(8, 0x88), (9, 0x77), (10, 0x66), (11, 0x55)], []⟩) = true := by decide +kernel

/-- 09 R231: an address that is not a multiple of 8 traps, cause 14h, with the address. -/
theorem test_misaligned : after (exec (.ld64 l3) (state (ctx [4])))
    (fun t => t.cur.pendingTrap.map (fun p => (p.1.cause, p.1.addr)) == some (0x14, 4) && t.cur.inflight == []) = true := by decide +kernel

/-- 06 R133: bytes of a lane do not carry into each other: FFh + 1 = 0 beside 1 + 1 = 2. -/
theorem test_vadd_i8 :
    let v := fun x => List.replicate 64 ({ val := x } : LaneVal)
    (flights (exec (.vaddI8 { v0 with vd := 1, va := 2, vb := 3 }) (state { ctx [] with vregs := [(2, v 0x01FF01FF), (3, v 0x01010101)] }))).map
      (fun f => (f.1, f.2.1 == .vector 1 (List.replicate 64 (some { val := 0x02000200 })))) = [(3, true)] := by decide +kernel

/-- 09 R233: an add to an accumulator entry brings back what stood there, and clamps. -/
theorem test_aadd :
    let o := exec (.aadd l3) (state (ctx [16, 5]) { acc := [(2, { val := 0x7FFFFFFFFFFFFFFE })] })
    flights o = [(8, .scalar 3 { val := 0x7FFFFFFFFFFFFFFE }, flSAT)] ∧
    after o (fun t => (t.tile 0).acc == [(2, { val := 0x7FFFFFFFFFFFFFFF, sat := true })]) = true := by decide +kernel

/-- 11 R302: BR −3 from macro PC 8. -/
theorem test_branch : after (exec (.br { disp := -3 }) (state { ctx [] with pc := 8 })) (fun t => t.cur.pc == 5) = true := by decide +kernel

/-- 11 R306: SEMW takes 2 of 5. -/
theorem test_semw : after (exec (.semw { c0 with imm := 0x0200 }) (state (ctx [0, 0]) { sems := [(0, { value := 5 })] }))
    (fun t => (t.tile 0).sems == [(0, { value := 3 })]) = true := by decide +kernel

/-- 13 R345, R348: the handler of a TRAP is entered at TVEC at the supervisor level, with the cause and the macro PC saved. -/
theorem test_trap_entry :
    let s := event { ctx [] with st := .trapping, pc := 8, tvec := 100, pendingTrap := some ({ cause := 0x0A, pc := 8, slot := 8, ret := 8 }, 99) }
    after (exec .trapEntry s) (fun t => (t.ctx 0 0).pc == 100 && (t.ctx 0 0).lvl == 1 && (t.ctx 0 0).trapcause == 0x0A && (t.ctx 0 0).trappc == 8
      && (t.ctx 0 0).st == .ready) = true := by decide +kernel

/-- A word of the opcode table and the step that fetches it: BR +4 placed by `withFetchWord` is the next thing that happens. -/
theorem test_table_word : decodeTableWord 32 0x00004001 = some (.br { disp := 4 }) ∧
    (match step (State.reset.withFetchWord 32 0x00004001) with | .next t => (t.ctx 0 0).pc == 4#17 | _ => false) = true := by decide +kernel

/-! ### The assembler (R53 to R60) -/

/-- The three worked bundles after R60, at a capacity of two: Tables 2.22 to 2.24 and the code words beside them; and the image of
that kernel passes the header checks of Table 11.2. -/
theorem test_imkas_worked :
    (let one : Imkas.Bundle := { lines := [
       { force := some 2, form := .add { d := 4, sa := 0, sb := 0, g := 0, gn := 0, imm := 0 }, srcs := [(.a, .reg 5), (.b, .imm (.num 12))] },
       { form := .ld64 { t := 6, sa := 0, sb := 0, sc := 0, g := 0, gn := 0, off := 0 }, srcs := [(.a, .reg 5)]
         consts := [{ lo := 26, width := 14, signed := true, value := .num 64 }] },
       { form := .vfmaF32 { v0 with vd := 10, va := 11, vb := 12, vc := 13 } }] }
     let two : Imkas.Bundle := { rgn := true, lock := some (.num 3, .num 17, .num 4), lines := [
       { form := .sub { d := 7, sa := 0, sb := 0, g := 2, gn := 0, imm := 0 }, srcs := [(.a, .reg 8), (.b, .reg 9)] },
       { form := .st64 { t := 0, sa := 0, sb := 0, sc := 0, g := 0, gn := 0, off := 0 }, srcs := [(.a, .reg 8), (.b, .reg 9)]
         consts := [{ lo := 26, width := 14, signed := true, value := .num 8 }] }] }
     let three : Imkas.Bundle := { lines := [
       { form := .copy { x0 with sy := 5, ch := 2 }, srcs := [(.a, .reg 10), (.b, .reg 11), (.c, .reg 12)] },
       { form := .yield { imm := 0, p := 0, sb := 0, sa := 0 } }] }
     let out := Imkas.assemble [.ctxalloc none none (some (.num 2)), .bundle one, .bundle two, .bundle three] []
     (out.map fun o => o.code) = some ([0, 1, 0xFFFF, 0x0000, 0x25CA, 0x0013] ++ List.replicate 15 0 ++ [0x2141, 0x0082, 0, 0, 0x0019, 0]) ∧
     (out.map fun o => o.dict) = some [
       (List.map (fun e => e.2 * 2 ^ (16 * e.1)) [(1, 0x0045), (6, 0x0100), (7, 0x0702), (8, 0x000C), (9, 0x0187), (11, 0x1201), (12, 0xC2CA), (13, 0x0034)]).sum,
       (List.map (fun e => e.2 * 2 ^ (16 * e.1)) [(0, 0x488F), (1, 0x24C8), (4, 0x0382), (5, 0x0011), (9, 0x800D), (10, 0x2000)]).sum] ∧
     (out.map fun o => headerOk (o.image.map fun b => (b, false)) && o.image.length == 1088) = some true) := by
  decide +kernel

/-- A branch back to a label past a literal: the labels settle on the second pass. -/
theorem test_imkas_labels :
    (let l : List Imkas.Stmt := [.ctxalloc none none (some (.num 1)), .bundle {}, .label "a",
       .bundle { rgn := true }, .label "b", .bundle { lines := [{ form := .br { disp := 0 }, consts := [{ lo := 12, width := 20, signed := true, fromPc := true, value := .name "a" }] }] }]
     (Imkas.assemble l []).map (fun o => (o.labels.map (fun e => e.2.toNat), o.code.length, o.code.drop 48)) =
       some ([1, 26], 51, [0, 0x7001, 0xFFFE])) := by decide +kernel

end Sys2Proof.Tests
end

section
/-! PROOFS. Bundles and their encoding (02): the privileged forms at the user level (R52), the NOPs and the bundle of zeros (R49), the
opening of a region (R31). -/

namespace Sys2Proof.Machine

/-! ### Plans that land nothing and use no bank -/

/-- A plan that puts no result in flight and uses no scratchpad bank. -/
structure Plan.Bare (p : Plan) : Prop where
  results : p.results = []
  freeResults : p.freeResults = []
  farResults : p.farResults = []
  banks : p.banks = []
  fabBanks : p.fabBanks = []

theorem branchTo_bare (target : Int) (act : State → State) : (branchTo target act).Bare := by
  unfold branchTo
  split <;> exact ⟨rfl, rfl, rfl, rfl, rfl⟩

/-- Other checks leave a plan as bare as it was. -/
theorem Plan.Bare.withChecks {p : Plan} (h : p.Bare) (cs : List Check) : ({ p with checks := cs } : Plan).Bare :=
  ⟨h.results, h.freeResults, h.farResults, h.banks, h.fabBanks⟩

/-- A bare plan whose one failing check is a precise trap, alone in a bundle that nothing hinders. -/
theorem issueOp_bare_trapped {p : State → Plan} {s : State} {cause : Nat} {addr : Word} {ph : Nat} (ho : Opens s)
    (hu : Unhindered s [] []) (hp : (p s).Bare) (hc : (p s).checks = [trapCheck cause addr ph]) :
    ∃ t, issueOp p s = .next t ∧ Trapped s t cause addr :=
  issueOp_trapped ho rfl hc (by rw [hp.results, hp.banks]; exact hu) hp.freeResults hp.farResults hp.fabBanks

/-- Judged beside other operations, a plan whose one failing check is a precise trap adds that trap to what the bundle has found. -/
theorem issueOp_judged_trap {p : State → Plan} {s : State} {cause : Nat} {addr : Word} {ph : Nat} (hm : s.issue.mode = .judge)
    (hc : (p s).checks = [trapCheck cause addr ph]) :
    ∃ t fs, issueOp p s = .next t ∧ t.issue.fails = s.issue.fails ++ fs ∧
      fs.map (fun x => (x.phase, x.slot, x.kind)) = [(ph, s.issue.slot, .trap .precise cause addr 0)] := by
  refine ⟨recordPlan (p s) s, _, by simp only [issueOp, hm], rfl, ?_⟩
  rw [hc]
  rfl

/-! ### The privileged forms (R52) -/

/-- The forms that only the supervisor level may issue. -/
noncomputable def privilegedForms : List (CSlot → Instr) :=
  [.eret, .eres, .park, .unparkReturn, .unparkResume, .unparkRedirect, .unparkEnd]

theorem supervisorCheck_user {s : State} (h : s.issue.lvl = 0) : supervisorCheck s = [trapCheck cPrivilege 0 phPrivilege] := by
  simp [supervisorCheck, h]

theorem firstOf_supervisorCheck_user {s : State} (h : s.issue.lvl = 0) (rest : List (List Check)) :
    firstOf (supervisorCheck s :: rest) = [trapCheck cPrivilege 0 phPrivilege] := by
  rw [supervisorCheck_user h, firstOf_fail]

/-- At the user level every privileged form is a bare plan whose one failing check is the privilege trap of phase 3. -/
theorem exec_privileged_user {i : CSlot → Instr} (hi : i ∈ privilegedForms) (f : CSlot) {s : State} (h : s.issue.lvl = 0) :
    ∃ p : State → Plan, exec (i f) s = issueOp p s ∧ (p s).Bare ∧ (p s).checks = [trapCheck cPrivilege 0 phPrivilege] := by
  have unpark : ∀ act, ∃ p : State → Plan,
      unparkWith f act s = issueOp p s ∧ (p s).Bare ∧ (p s).checks = [trapCheck cPrivilege 0 phPrivilege] :=
    fun _ => ⟨_, rfl, ⟨rfl, rfl, rfl, rfl, rfl⟩, firstOf_supervisorCheck_user h _⟩
  simp only [privilegedForms, List.mem_cons, List.not_mem_nil, or_false] at hi
  rcases hi with rfl | rfl | rfl | rfl | rfl | rfl | rfl
  · show ∃ p : State → Plan, execEret f s = issueOp p s ∧ _
    exact ⟨_, rfl, (branchTo_bare ..).withChecks _, firstOf_supervisorCheck_user h _⟩
  · show ∃ p : State → Plan, execEres f s = issueOp p s ∧ _
    exact ⟨_, rfl, (branchTo_bare ..).withChecks _, firstOf_supervisorCheck_user h _⟩
  · show ∃ p : State → Plan, execPark f s = issueOp p s ∧ _
    exact ⟨_, rfl, ⟨rfl, rfl, rfl, rfl, rfl⟩, supervisorCheck_user h⟩
  · exact unpark 0
  · exact unpark 1
  · exact unpark 2
  · exact unpark 3

/-- Settles O43: at the user level each privileged form finds the privilege trap of phase 3 and nothing else. -/
theorem privilegeTraps : Obligations.PrivilegeTraps := by
  intro i hi f s hl
  obtain ⟨p, hp, hb, hc⟩ := exec_privileged_user hi f hl
  rw [hp]
  exact ⟨fun ho hu => issueOp_bare_trapped ho hu hb hc, fun hm => issueOp_judged_trap hm hc⟩

/-! ### The opening of a region (R31) -/

/-- What the opening of a region finds and does. -/
def regionPlan (s : State) : Plan :=
  { checks := firstOf [failIf ((s.cur.inflight.any fun l => l.flies s.now) || s.cur.lockLeft.isSome) scheduleTrap,
      failIf (!(s.cur.heldAt s.now).isEmpty) (holdCheck .matrixBusy 2 0 0 .none phSchedule)]
    act := fun s => s.modCur fun k => k.openRegion s.issue.pc }

theorem exec_regionOpen (s : State) : exec .regionOpen s = issueOp regionPlan s := rfl

theorem regionPlan_bare (s : State) : (regionPlan s).Bare := ⟨rfl, rfl, rfl, rfl, rfl⟩

section
variable {s : State}

theorem regionPlan_checks_exposed (h : (s.cur.inflight.any fun l => l.flies s.now) = true) :
    (regionPlan s).checks = [scheduleTrap] := by
  simp [regionPlan, h]

theorem regionPlan_checks_settled (h : (s.cur.inflight.any fun l => l.flies s.now) = false) (hl : s.cur.lockLeft = none) :
    (regionPlan s).checks = failIf (!(s.cur.heldAt s.now).isEmpty) (holdCheck .matrixBusy 2 0 0 .none phSchedule) := by
  simp only [regionPlan, h, hl, Option.isSome_none, Bool.or_self, failIf_false, firstOf_pass]
  cases (s.cur.heldAt s.now).isEmpty <;> rfl

/-- With nothing exposed, no lock and no register held, the region opens and the context goes on. -/
theorem exec_regionOpen_went (ho : Opens s) (hu : Unhindered s [] []) (h : (s.cur.inflight.any fun l => l.flies s.now) = false)
    (hl : s.cur.lockLeft = none) (hh : s.cur.heldAt s.now = []) :
    ∃ t, exec .regionOpen s = .next t ∧ Went (s.modCur fun k => k.openRegion s.issue.pc) t [] s.issue.nextPc false := by
  have hc : (regionPlan s).checks = [] := by rw [regionPlan_checks_settled h hl, hh]; rfl
  rw [exec_regionOpen]
  exact issueOp_acts ho rfl hc hu rfl rfl rfl rfl rfl

/-- A register still held for a late value keeps the region from opening (09 R234). -/
theorem exec_regionOpen_held (ho : Opens s) (hu : Unhindered s [] []) (h : (s.cur.inflight.any fun l => l.flies s.now) = false)
    (hl : s.cur.lockLeft = none) (hh : s.cur.heldAt s.now ≠ []) (hf : s.cur.inFtr = false) :
    ∃ t, exec .regionOpen s = .next t ∧ Held s t .matrixBusy := by
  have hc : (regionPlan s).checks = [holdCheck .matrixBusy 2 0 0 .none phSchedule] := by
    rw [regionPlan_checks_settled h hl, List.isEmpty_eq_false_iff.mpr hh]
    rfl
  rw [exec_regionOpen]
  exact issueOp_held ho rfl hc hu rfl rfl rfl hl hf

end

/-- A result is in exposed flight when it is bound for a register and has neither reached its nominal landing nor takes a free port. -/
theorem Landing.flies_iff (l : Landing) (now : Nat) :
    l.flies now = true ↔
      l.dest.key ≠ none ∧ (∀ n, l.nominal = some n → now < n) ∧ (l.nominal = none → l.free = false) := by
  unfold Landing.flies
  cases l.nominal <;> simp [Option.isSome_iff_ne_none]

/-- The operations of a bundle with RGN begin with the opening of its region. -/
theorem issueOrder_head_of_rgn {h : Header} (hr : h.rgn = true) (ops : List Op) :
    (issueOrder h ops).head? = some ⟨0, .regionOpen, 0⟩ := by
  simp [issueOrder, hr]

/-- Settles O55: exposed results trap, held registers block, and otherwise the region opens. -/
theorem regionHeader : Obligations.RegionHeader := by
  refine ⟨fun h ops hr => issueOrder_head_of_rgn hr ops, fun s => ?_⟩
  intro k exposed
  have hex : exposed ↔ (s.cur.inflight.any fun l => l.flies s.now) = true := by
    rw [List.any_eq_true]
    refine exists_congr fun l => and_congr_right fun _ => ?_
    rw [Landing.flies_iff]
    cases l.nominal <;> simp
  have hnot : ¬exposed → (s.cur.inflight.any fun l => l.flies s.now) = false := fun h => by rwa [hex, Bool.not_eq_true] at h
  refine ⟨fun ho hu => ⟨fun h hl hh => ?_, fun h => ?_, fun h hl hh hf => ?_⟩, fun hm h => ?_⟩
  · exact exec_regionOpen_went ho hu (hnot h) hl hh
  · rw [exec_regionOpen]
    exact issueOp_bare_trapped ho hu (regionPlan_bare s) (regionPlan_checks_exposed (hex.mp h))
  · exact exec_regionOpen_held ho hu (hnot h) hl hh hf
  · rw [exec_regionOpen]
    exact issueOp_judged_trap hm (regionPlan_checks_exposed (hex.mp h))

/-! ### NOPs (R49) -/

/-- The NOP of a slot kind. -/
def nopOf : SlotKind → Instr
  | .f => .nopF
  | .c => .nopC
  | _ => .nop

theorem decodeSlot_zero (k : SlotKind) : decodeSlot k 0 = .ok (nopOf k) := by cases k <;> rfl

theorem namesDisabled_nopOf (h : Header) (k : SlotKind) : namesDisabled h (nopOf k) = false := by cases k <;> rfl

/-- A word with opcode 0 that is not NOP is refused, in every slot kind. -/
theorem decodeSlot_opcode_zero {k : SlotKind} {m w : Nat}
    (hk : (k, m) ∈ ([(.s, 128), (.l, 64), (.v, 256), (.m, 32), (.x, 64), (.f, 16), (.c, 64)] : List (SlotKind × Nat)))
    (hm : w % m = 0) (hw : w ≠ 0) : decodeSlot k w = .error .illegalField := by
  cases k <;> obtain rfl : m = _ := by simpa using hk
  case s => rw [decodeSlot, decodeS, if_neg hw, hm]; rfl
  case l => rw [decodeSlot, decodeL, if_neg hw, hm]; rfl
  case v => rw [decodeSlot, decodeV, if_neg hw, hm]; rfl
  case m => rw [decodeSlot, decodeM, if_neg hw, hm]; rfl
  case x => rw [decodeSlot, decodeX, if_neg hw, hm]; rfl
  case f => rw [decodeSlot, decodeF, if_neg hw, hm]; rfl
  case c => rw [decodeSlot, decodeC, if_neg hw, hm]; rfl

theorem isNop_iff (i : Instr) : isNop i = true ↔ i = .nop ∨ i = .nopF ∨ i = .nopC := by
  constructor
  · intro h
    unfold isNop at h
    split at h <;> simp_all
  · rintro (rfl | rfl | rfl) <;> rfl

/-- A NOP finds nothing and does nothing. -/
theorem exec_nop {i : Instr} (hi : isNop i = true) (s : State) : exec i s = issueOp (fun _ => {}) s := by
  obtain rfl | rfl | rfl := (isNop_iff i).mp hi <;> rfl

theorem resolve_nop {i : Instr} (hi : isNop i = true) (s : State) : resolve s i = i := by
  obtain rfl | rfl | rfl := (isNop_iff i).mp hi <;> rfl

theorem recordPlan_empty (s : State) : recordPlan {} s = s := by
  simp [recordPlan, State.modIssue, Plan.landings]

theorem commitPlan_empty (s : State) : commitPlan {} s = s := by
  simp [commitPlan, State.modIssue]

/-- Judged or committed beside other operations, a NOP leaves the state as it is. -/
theorem exec_nop_part {i : Instr} (hi : isNop i = true) {s : State} (hm : s.issue.mode ≠ .whole) : exec i s = .next s := by
  rw [exec_nop hi, issueOp]
  cases h : s.issue.mode with
  | judge => simp only [recordPlan_empty]
  | commit => simp only [commitPlan_empty]
  | whole => exact absurd h hm

/-- Judging or committing NOPs changes nothing but the slot and the mode that the record of the bundle names. -/
theorem runOps_nops {mode : IssueMode} (hm : mode ≠ .whole) (o : Op) (ops : List Op) (s : State)
    (h : ∀ p ∈ o :: ops, isNop p.instr = true) : ∃ n, runOps mode (o :: ops) s = .next (s.atOp n mode) := by
  have ho : isNop o.instr = true := h o (List.mem_cons_self ..)
  induction ops generalizing o s with
  | nil => exact ⟨o.slot, by simp only [runOps, resolve_nop ho, exec_nop_part ho (s := s.atOp o.slot mode) hm]⟩
  | cons p ps ih =>
    have hps : ∀ q ∈ p :: ps, isNop q.instr = true := fun q hq => h q (List.mem_cons_of_mem _ hq)
    obtain ⟨n, hn⟩ := ih p (s.atOp o.slot mode) hps (hps p (List.mem_cons_self ..))
    refine ⟨n, ?_⟩
    rw [runOps, resolve_nop ho, exec_nop_part ho (s := s.atOp o.slot mode) hm]
    exact hn

/-- The slot and the mode in the record of a bundle are none of what a frame speaks of. -/
theorem Went.of_atOp {s t : State} {n : Nat} {mode : IssueMode} {ls : List Landing} {next : Nat} {nonRep : Bool}
    (h : Went (s.atOp n mode) t ls next nonRep) : Went s t ls next nonRep where
  machine := h.machine
  tiles := h.tiles
  tile := h.tile
  ctxs := h.ctxs
  ctx := h.ctx
  pc := h.pc
  pcOver := h.pcOver
  inflight := h.inflight
  repeatable := h.repeatable

/-- A bundle of NOPs that nothing hinders goes, and its context only goes on to the next one. -/
theorem runBundle_nops (o p : Op) (ops : List Op) {s : State} (h : ∀ q ∈ o :: p :: ops, isNop q.instr = true) (ho : Opens s)
    (hu : Unhindered s [] []) :
    ∃ t, runBundle (o :: p :: ops) s = .next t ∧ Went s t [] s.issue.nextPc false := by
  obtain ⟨n, hj⟩ := runOps_nops (mode := .judge) (by decide) o (p :: ops) s h
  obtain ⟨m, hc⟩ := runOps_nops (mode := .commit) (by decide) o (p :: ops) (s.atOp n .judge) h
  have hf : firstFail (s.atOp n .judge).allFails = none := by
    have := firstFail_record (p := {}) ho rfl hu (.inl rfl)
    rwa [recordPlan_empty] at this
  refine ⟨finishBundle ((s.atOp n .judge).atOp m .commit), by simp only [runBundle, hj, hf, hc], ?_⟩
  have hw := finishBundle_went ((s.atOp n .judge).atOp m .commit) s.issue.nextPc
    (by rw [show ((s.atOp n .judge).atOp m .commit).issue.target = none from ho.target]; rfl)
  rw [show ((s.atOp n .judge).atOp m .commit).issue.lands = [] from ho.lands,
    show ((s.atOp n .judge).atOp m .commit).issue.nonRep = false from ho.nonRep] at hw
  exact hw.of_atOp.of_atOp

/-! ### The bundle of zeros (R49) -/

/-- A verdict to run a bundle comes from no branch that says otherwise. -/
theorem Attempt.eq_run_of_ite {p : Prop} [Decidable p] {a b : Attempt} {is : Issue} {ops : List Op}
    (h : (if p then a else b) = .run is ops) (ha : a ≠ .run is ops) : b = .run is ops := by
  split at h
  · exact absurd h ha
  · exact h

/-- A bundle that a context would run is the one fetched, with its operations in their order. -/
theorem attempt_run {s : State} {t c w next : Nat} {lit : Bool} {is : Issue} {ops : List Op}
    (hf : fetch (s.tile t) (s.ctx t c) = .bundle w next lit) (ha : s.attempt t c = .run is ops) :
    is = openIssue t c (s.ctx t c) w next ((decodeBundle w).1.filter fun o => !isNop o.instr).length
        ((decodeBundle w).1.map (·.instr)) ∧
      ops = issueOrder (Header.ofWord (w % 2 ^ 64)) (decodeBundle w).1 := by
  have hf' : fetch (s.tile t) ((s.tile t).ctx c) = .bundle w next lit := hf
  unfold State.attempt at ha
  simp only [hf'] at ha
  iterate 5 (replace ha := Attempt.eq_run_of_ite ha nofun)
  split at ha
  · cases ha
  · cases ha
    exact ⟨rfl, rfl⟩

@[simp] theorem SlotPlace.word_zero (p : SlotPlace) : p.word 0 = 0 := by simp [SlotPlace.word]

theorem decodeSlots_zero (h : Header) (ps : List SlotPlace) :
    decodeSlots h 0 ps = (ps.map fun p => ⟨p.num, nopOf p.kind, 0⟩, []) := by
  induction ps with
  | nil => rfl
  | cons p ps ih =>
    simp only [decodeSlots, ih, SlotPlace.word_zero, decodeSlot_zero, namesDisabled_nopOf, Bool.false_eq_true, if_false, List.map_cons]

/-- A bundle of zeros holds a NOP in every slot. -/
theorem decodeBundle_zero : (decodeBundle 0).1 = slotPlaces.map fun p => ⟨p.num, nopOf p.kind, 0⟩ := by
  simp only [decodeBundle, decodeSlots_zero]

/-- The operations judged and committed for a bundle of zeros: none of its NOPs is real, so those of three slots stand for it. -/
theorem issueOrder_zero :
    issueOrder (Header.ofWord (0 % 2 ^ 64)) (decodeBundle 0).1 = [⟨1, .nop, 0⟩, ⟨7, .nopF, 0⟩, ⟨8, .nopC, 0⟩] := by
  rw [decodeBundle_zero]
  rfl

/-- The scalar s0 is held for no late value. -/
theorem ne_zero_of_mem_heldAt {k : Ctx} {now r : Nat} (h : r ∈ k.heldAt now) : r ≠ 0 := by
  obtain ⟨l, -, hl⟩ := List.mem_filterMap.mp h
  split at hl
  · split at hl <;> simp_all
  · cases hl

/-- When a bundle takes issue, nothing has been found or done of it yet. -/
theorem opens_open (s : State) (t c : Nat) (k : Ctx) (w next n : Nat) (ops : List Instr)
    (hf : (s.open (openIssue t c k w next n ops)).fenceFails = []) : Opens (s.open (openIssue t c k w next n ops)) :=
  ⟨rfl, rfl, rfl, rfl, rfl, rfl, rfl, rfl, rfl, hf⟩

/-- Nothing hinders a bundle that touches no register: no port is enabled, and no X form names a TD. -/
theorem unhindered_of_no_register {s : State} (hp : ∀ p ∈ s.issue.hdr.ports, p.toNat < 64) (ht : s.issue.td = 0) :
    Unhindered s [] [] where
  held r hr := by
    refine ⟨fun p h e => ?_, fun e => ne_zero_of_mem_heldAt hr (e.symm.trans ht), by simp⟩
    have := hp p h
    omega
  ports := rfl
  banks := by simp

theorem unhindered_open_zero (s : State) (t c : Nat) (k : Ctx) (next n : Nat) {ops : List Instr}
    (ht : (ops.map tdOf).foldl max 0 = 0) :
    Unhindered (s.open (openIssue t c k 0 next n ops)) [] [] := by
  have hports : ∀ p ∈ (Header.ofWord (0 % 2 ^ 64)).ports, p.toNat < 64 := by decide
  exact unhindered_of_no_register hports ht

theorem tile_heldAt_open (s : State) (is : Issue) : ((s.open is).tile is.tile).heldAt = some (s.tickOf is.tile) := by
  simp [State.open, State.tile, State.modTile, State.setTile, Tile.tookIssue]

/-- The record of the tile's selector is none of what a bundle changes. -/
theorem OnlyContext.heldAt {s t : State} (h : OnlyContext s t) : (t.tile s.issue.tile).heldAt = s.curTile.heldAt := by
  have hl := congrArg Tile.heldAt h.tile
  exact hl

/-- A context whose timers are in bounds runs its bundle. -/
theorem issueCtx_run {s : State} {t c : Nat} {is : Issue} {ops : List Op} (ha : s.attempt t c = .run is ops)
    (ho : (s.ctx is.tile is.ctx).overdue is.hdr.rgn = none) : s.issueCtx t c = runBundle ops (s.open is) := by
  have hv : s.overdueEvent is ops = none := by rw [State.overdueEvent, ho]
  simp only [State.issueCtx, ha, hv]

/-- A context whose next bundle is all zeros goes on to the one after it, and its tile has been held for issue. -/
theorem issueCtx_zeros {s : State} {t c next : Nat} {lit : Bool} {is : Issue} {ops : List Op}
    (hf : fetch (s.tile t) (s.ctx t c) = .bundle 0 next lit) (ha : s.attempt t c = .run is ops)
    (hv : (s.ctx t c).overdue false = none) (hq : (s.open is).fenceFails = []) :
    ∃ u, s.issueCtx t c = .next u ∧ Went (s.open is) u [] next false ∧ (u.tile t).heldAt = some (s.tickOf t) := by
  obtain ⟨his, hops⟩ := attempt_run hf ha
  have htd : (((decodeBundle 0).1.map (·.instr)).map tdOf).foldl max 0 = 0 := by rw [decodeBundle_zero]; decide
  rw [issueOrder_zero] at hops
  generalize (decodeBundle 0).1.map (·.instr) = slots, ((decodeBundle 0).1.filter fun o => !isNop o.instr).length = n at his htd
  subst his hops
  rw [issueCtx_run ha hv]
  obtain ⟨u, hr, hw⟩ := runBundle_nops ⟨1, .nop, 0⟩ ⟨7, .nopF, 0⟩ [⟨8, .nopC, 0⟩] (by decide) (opens_open s t c _ 0 next n slots hq)
    (unhindered_open_zero s t c _ next n htd)
  exact ⟨u, hr, hw, hw.heldAt.trans (tile_heldAt_open ..)⟩

/-- Settles O54: NOP is the word 0 of every slot, alone it only goes on, and so does a bundle of zeros. -/
theorem nopSlots : Obligations.NopSlots := by
  refine ⟨fun k => ?_, fun e he w hm hw => decodeSlot_opcode_zero he hm hw, fun i hi s ho hu => ?_, ?_⟩
  · exact decodeSlot_zero k
  · rw [exec_nop ((isNop_iff i).mpr (by simpa using hi))]
    exact issueOp_issued ho (rs := []) rfl hu
  · intro s t c next lit is ops hf ha hv hq
    exact issueCtx_zeros hf ha hv hq

end Sys2Proof.Machine
end
